-- ==== Sys2Proof/Word.lean ====
section
/-! DEFINITION. The word types of the SRM phase-pattern sequencer: widths of 00_scope.md R11 and 10_state.md R20 to R30. -/

namespace Sys2Proof

/-- A command word as presented on port `cmd` (30_encoding.md R70). -/
abbrev CmdWord := BitVec 64

/-- A response word on port `resp` (30_encoding.md R80). -/
abbrev RespWord := BitVec 8

/-- A byte of a command word that a host moves as bytes (20_memory.md R62). -/
abbrev CmdByte := BitVec 8

/-- A pin identifier, `PIN_W` = 8 bits (00_scope.md R11, 10_state.md R30). -/
abbrev PinId := BitVec 8

/-- The position and the phase masks, `POS_W` = 8 bits (00_scope.md R11, 10_state.md R23, R25). -/
abbrev PosWord := BitVec 8

/-- A value of the microsecond counter, `CLK_W` = 32 or 64 bits (00_scope.md R11). The container has 64 bits;
a 32-bit value stands zero-extended in it. DESIGN CHOICE, safe: notes/assumptions/5.md. -/
abbrev ClockWord := BitVec 64

end Sys2Proof
end

