-- ==== Sys2Proof/Syntax.lean ====
section
/-! DEFINITION. The eight commands of spec/opcode_table.json, with the operands of 30_encoding.md R71 to R75. -/

namespace Sys2Proof

/-- One constructor per row of the opcode table (30_encoding.md R77). -/
inductive Instr where
  /-- NEW (40_construction.md R103): three pin identifiers and the 8-bit pattern type, each zero-extended. -/
  | new (pin1 pin2 pin3 : PinId) (ptype : BitVec 8)
  /-- SET_SPEED: the target speed `sext_32(cmd[31:0])`, a signed integer (30_encoding.md R73). -/
  | setSpeed (rpm : Int)
  /-- SET_SPEED_CONTROL: the bit `en` (30_encoding.md R72). -/
  | setSpeedControl (en : Bool)
  /-- STEP_FWD (42_stepping.md R140). -/
  | stepFwd
  /-- STEP_BWD (42_stepping.md R142). -/
  | stepBwd
  /-- RELEASE (43_phase_output.md R165). -/
  | release
  /-- RESUME (43_phase_output.md R166). -/
  | resume
  /-- APPLY (43_phase_output.md R163). -/
  | apply
deriving DecidableEq, Repr

end Sys2Proof
end

