-- ==== Sys2Proof/WellFormed.lean ====
section
/-! DEFINITION. Which commands have a command word: the operand ranges of 30_encoding.md R71 to R75. -/

namespace Sys2Proof

/-- A signed speed fits its 32-bit field: [−2^31, 2^31 − 1] (30_encoding.md R73). -/
abbrev RpmInRange (rpm : Int) : Prop := -2147483648 ≤ rpm ∧ rpm ≤ 2147483647

/-- A command whose operands its format can carry. Pins, pattern type and `en` have the width of their fields in their
types; only the speed of SET_SPEED needs a check. -/
def Instr.wellFormed : Instr → Bool
  | .new _ _ _ _ => true
  | .setSpeed rpm => decide (RpmInRange rpm)
  | .setSpeedControl _ => true
  | .stepFwd => true
  | .stepBwd => true
  | .release => true
  | .resume => true
  | .apply => true

end Sys2Proof
end

