-- ==== Sys2Proof/Decode.lean ====
section
/-! DEFINITION. Decoding of command words and of their serialised bytes, the encoder, and the opcode table as rows
(30_encoding.md R70 to R79, 20_memory.md R62). -/

namespace Sys2Proof

/-- Why a word, or a row of bytes, is no command. The first two are ILLEGAL (30_encoding.md R76, R78). -/
inductive DecodeError where
  /-- Opcode 0x00 or 0x09 to 0xFF (30_encoding.md R78). -/
  | unassignedOpcode (op : BitVec 8)
  /-- An assigned opcode with a reserved bit set (30_encoding.md R76). -/
  | reservedBits (op : BitVec 8)
  /-- Fewer than the eight bytes of a command word (20_memory.md R62); the block itself never sees this. -/
  | tooFewBytes
deriving DecidableEq, Repr

/-- `cmd[63:56]` (30_encoding.md R70). -/
def opcodeField (w : CmdWord) : BitVec 8 := w.extractLsb' 56 8

/-- The reserved bits of the formats N, B, S and C (30_encoding.md R79). -/
def reservedN : CmdWord := 0x00FFFFFFFFFFFFFF#64
def reservedB : CmdWord := 0x00FFFFFFFFFFFFFE#64
def reservedS : CmdWord := 0x00FFFFFF00000000#64
def reservedC : CmdWord := 0x00FFFFFF00000000#64

/-- The command `i` if the word has no reserved bit set, else a rejection (30_encoding.md R76). -/
def unlessReserved (w reserved : CmdWord) (i : Instr) : Except DecodeError Instr :=
  if w &&& reserved = 0 then .ok i else .error (.reservedBits (opcodeField w))

/-- Format C (30_encoding.md R74). -/
def decodeNew (w : CmdWord) : Instr :=
  .new (w.extractLsb' 0 8) (w.extractLsb' 8 8) (w.extractLsb' 16 8) (w.extractLsb' 24 8)

/-- Format S: `sext_32(cmd[31:0])` (30_encoding.md R73). -/
def decodeSetSpeed (w : CmdWord) : Instr := .setSpeed (w.extractLsb' 0 32).toInt

/-- Format B: `cmd[0]` (30_encoding.md R72). -/
def decodeSetSpeedControl (w : CmdWord) : Instr := .setSpeedControl (w.getLsbD 0)

/-- The decoder of 30_encoding.md R79, total on every 64-bit word. -/
def decode (w : CmdWord) : Except DecodeError Instr :=
  match (opcodeField w).toNat with
  | 0x01 => unlessReserved w reservedC (decodeNew w)
  | 0x02 => unlessReserved w reservedS (decodeSetSpeed w)
  | 0x03 => unlessReserved w reservedB (decodeSetSpeedControl w)
  | 0x04 => unlessReserved w reservedN .stepFwd
  | 0x05 => unlessReserved w reservedN .stepBwd
  | 0x06 => unlessReserved w reservedN .release
  | 0x07 => unlessReserved w reservedN .resume
  | 0x08 => unlessReserved w reservedN .apply
  | _ => .error (.unassignedOpcode (opcodeField w))

/-- Byte `k` of a serialised command word is bits `[8k+7:8k]` (20_memory.md R62). -/
def cmdBytes (w : CmdWord) : List CmdByte :=
  [w.extractLsb' 0 8, w.extractLsb' 8 8, w.extractLsb' 16 8, w.extractLsb' 24 8,
    w.extractLsb' 32 8, w.extractLsb' 40 8, w.extractLsb' 48 8, w.extractLsb' 56 8]

/-- The command word that eight bytes stand for, the first one lowest (20_memory.md R62). -/
def wordOfBytes (b0 b1 b2 b3 b4 b5 b6 b7 : CmdByte) : CmdWord :=
  b7 ++ b6 ++ b5 ++ b4 ++ b3 ++ b2 ++ b1 ++ b0

/-- A command off the front of a row of bytes, with the bytes after it. Total on any bytes. -/
def decodeBytes : List CmdByte → Except DecodeError (Instr × List CmdByte)
  | b0 :: b1 :: b2 :: b3 :: b4 :: b5 :: b6 :: b7 :: rest =>
    match decode (wordOfBytes b0 b1 b2 b3 b4 b5 b6 b7) with
    | .ok i => .ok (i, rest)
    | .error e => .error e
  | _ => .error .tooFewBytes

/-- Format N: the opcode and 56 zero bits (30_encoding.md R71). -/
def encodeN (op : BitVec 8) : CmdWord := op ++ 0#56

/-- The command word of a well-formed command (30_encoding.md R71 to R77). -/
def encode : Instr → CmdWord
  | .new p1 p2 p3 pt => 0x01#8 ++ 0#24 ++ pt ++ p3 ++ p2 ++ p1
  | .setSpeed rpm => 0x02#8 ++ 0#24 ++ BitVec.ofInt 32 rpm
  | .setSpeedControl en => 0x03#8 ++ 0#55 ++ BitVec.ofBool en
  | .stepFwd => encodeN 0x04#8
  | .stepBwd => encodeN 0x05#8
  | .release => encodeN 0x06#8
  | .resume => encodeN 0x07#8
  | .apply => encodeN 0x08#8

/-- The `match` column of spec/opcode_table.json. -/
def rowMatch : Instr → CmdWord
  | .new _ _ _ _ => 0x0100000000000000#64
  | .setSpeed _ => 0x0200000000000000#64
  | .setSpeedControl _ => 0x0300000000000000#64
  | .stepFwd => 0x0400000000000000#64
  | .stepBwd => 0x0500000000000000#64
  | .release => 0x0600000000000000#64
  | .resume => 0x0700000000000000#64
  | .apply => 0x0800000000000000#64

/-- The `mask` column of spec/opcode_table.json. -/
def rowMask : Instr → CmdWord
  | .new _ _ _ _ => 0xFFFFFFFF00000000#64
  | .setSpeed _ => 0xFFFFFFFF00000000#64
  | .setSpeedControl _ => 0xFFFFFFFFFFFFFFFE#64
  | .stepFwd => 0xFFFFFFFFFFFFFFFF#64
  | .stepBwd => 0xFFFFFFFFFFFFFFFF#64
  | .release => 0xFFFFFFFFFFFFFFFF#64
  | .resume => 0xFFFFFFFFFFFFFFFF#64
  | .apply => 0xFFFFFFFFFFFFFFFF#64

/-- The 64-bit word whose low `nbits` bits are those of `w` and whose bits above are 0. -/
def tableWord (nbits w : Nat) : CmdWord := BitVec.ofNat 64 (w % 2 ^ nbits)

/-- The command this decoder reads from an instruction whose bits are `w`, numbered as the opcode table numbers them.
The word is laid out as a host moves it, byte 0 first (20_memory.md R62), and read back from those bytes. -/
def decodeTableWord (nbits w : Nat) : Option Instr :=
  match decodeBytes (cmdBytes (tableWord nbits w)) with
  | .ok (i, _) => some i
  | .error _ => none

end Sys2Proof
end

