-- ==== Sys2Proof/Config.lean ====
section
/-! DEFINITION. What an implementation fixes: the types of the parameters of 00_scope.md R11, and the one that is OPEN.
The values this hardware takes stand in Machine/Params.lean. -/

namespace Sys2Proof

/-- `CLK_W`, restricted to 32 and 64 (00_scope.md R11, 92_eei_decisions.md D6). -/
inductive ClkWidth where
  | w32
  | w64
deriving DecidableEq, Repr

/-- The two built-in patterns (40_construction.md R100). -/
inductive PatternName where
  | single
  | overlap
deriving DecidableEq, Repr

/-- The three phase masks of a pattern (10_state.md R23). -/
structure Masks where
  phase1 : PosWord
  phase2 : PosWord
  phase3 : PosWord
deriving DecidableEq, Repr

/-- A pattern: the tuple (step_count, phase1, phase2, phase3) of 40_construction.md R100. -/
structure Pattern where
  stepCount : BitVec 3
  masks     : Masks
deriving DecidableEq, Repr

/-- The parameters a model takes as arguments (00_scope.md R11; 92_eei_decisions.md, Open parameters). They stand in
State as plain data that no step changes, so a statement about every state holds for every value of them.
DESIGN CHOICE, safe: notes/assumptions/4.md. -/
structure Params where
  /-- `CLK_W`. -/
  clkW           : ClkWidth
  /-- `MASK_OVERLAP`. -/
  maskOverlap    : Masks
  /-- `DEFAULT_RPM`. -/
  defaultRpm     : Nat
  /-- `DEFAULT_PATTERN`. -/
  defaultPattern : PatternName
  /-- `PIN_VALID`, as the list of the pin identifiers it holds for. -/
  validPins      : List PinId
deriving DecidableEq, Repr

/-- `PIN_VALID` of this hardware's platform, OPEN in 00_scope.md R11: no value is given, and nothing can be proved of
one. notes/assumptions/4.md. -/
opaque Config.validPins : List PinId

end Sys2Proof
end

