-- ==== Sys2Proof/Machine/Params.lean ====
section
/-! DEFINITION. The values this hardware takes for the parameters and constants of 00_scope.md R11 and the pattern tables
of 40_construction.md R101. -/

namespace Sys2Proof.Machine

/-- The number of bits of the clock (20_memory.md R60). -/
def clockBits : ClkWidth → Nat
  | .w32 => 32
  | .w64 => 64

/-- `US_PER_MIN` (00_scope.md R11). -/
def usPerMin : Nat := 60000000

/-- `STEP_COUNT_SINGLE` and `STEP_COUNT_OVERLAP` (00_scope.md R11). -/
def stepCountSingle : BitVec 3 := 3#3
def stepCountOverlap : BitVec 3 := 6#3

/-- `MASK_SINGLE` (40_construction.md R101). -/
def maskSingle : Masks := { phase1 := 0b100#8, phase2 := 0b010#8, phase3 := 0b001#8 }

/-- The default `MASK_OVERLAP` (40_construction.md R101). -/
def maskOverlapDefault : Masks := { phase1 := 0b111000#8, phase2 := 0b001110#8, phase3 := 0b100011#8 }

/-- The parameters this hardware takes (00_scope.md R11). `PIN_VALID` is OPEN: an opaque constant. -/
def hardwareParams : Params :=
  { clkW := .w32
    maskOverlap := maskOverlapDefault
    defaultRpm := 500
    defaultPattern := .single
    validPins := Config.validPins }

/-- A mask has its set bits confined to the low `n` bits: `phase >> n = 0` (10_state.md R23). -/
def confined (n : Nat) (m : PosWord) : Bool := m >>> n == 0

/-- All three masks confined to the low `n` bits. -/
def masksConfined (n : Nat) (m : Masks) : Bool :=
  confined n m.phase1 && confined n m.phase2 && confined n m.phase3

/-- What the spec asks of the parameters: `MASK_OVERLAP` confined to bits `[5:0]` (40_construction.md R101) and a
positive default speed (40_construction.md R104). -/
def paramsAdmissible (q : Params) : Bool :=
  masksConfined 6 q.maskOverlap && decide (0 < q.defaultRpm)

/-- `PIN_VALID(p)` (20_memory.md R57). -/
def pinValid (q : Params) (p : PinId) : Bool := q.validPins.contains p

/-- The table of 40_construction.md R101. -/
def patternOf (q : Params) : PatternName → Pattern
  | .single => { stepCount := stepCountSingle, masks := maskSingle }
  | .overlap => { stepCount := stepCountOverlap, masks := q.maskOverlap }

end Sys2Proof.Machine
end

