-- ==== Sys2Proof/Machine/State.lean ====
section
/-! DEFINITION. The state of the block, of the PinSink beside it and of its ports, and the state right after reset
(10_state.md R20 to R37, 20_memory.md R56, 70_reset_and_hazards.md R230). -/

namespace Sys2Proof.Machine

/-- Why the machine would stop. There is no such reason: the block takes no trap (60_exceptions.md R204), and no word
can hang it or leave it undefined (R203). Every abnormal condition is a status in the response. -/
inductive Fault where
deriving DecidableEq, Repr

/-- Why a command would have no meaning. -/
inductive Refusal where
  /-- Raised by an arm of `exec` whose command has no meaning yet; safe. No arm raises it: all eight commands have
  their meaning. -/
  | notModelled (mnemonic : String)
deriving DecidableEq, Repr

/-- A logic level (20_memory.md R55). -/
inductive Level where
  | low
  | high
deriving DecidableEq, Repr

/-- The registers of the block (10_state.md R21 to R30). -/
structure Regs where
  /-- R21: a NEW has executed since power-on reset. -/
  configured   : Bool
  /-- R22: 3 or 6. -/
  stepCount    : BitVec 3
  /-- R23: the three phase masks. -/
  phase1       : PosWord
  phase2       : PosWord
  phase3       : PosWord
  /-- R25: one bit set, below `limit`. -/
  position     : PosWord
  /-- R26: true = voltage applied, false = released. -/
  running      : Bool
  /-- R27: microseconds per step. -/
  timeStep     : ClockWord
  /-- R28: the deadline of the next permitted step. -/
  nextUpdate   : ClockWord
  /-- R29: true = timing-gated stepping. -/
  speedControl : Bool
  /-- R30: the pin that carries each phase. -/
  pin1         : PinId
  pin2         : PinId
  pin3         : PinId
deriving DecidableEq, Repr

/-- The PinSink's state (20_memory.md R56). Both lists have strictly rising pin identifiers. -/
structure PinSink where
  /-- The pins whose `is_output` is true. -/
  isOutput  : List PinId
  /-- The pins whose `level` is not `none`, each with its level. -/
  level     : List (PinId × Level)
  /-- The sticky `sink_fault`. -/
  sinkFault : Bool
deriving DecidableEq, Repr

/-- A pin event on port `pin_ev` (20_memory.md R55). -/
inductive PinEvent where
  /-- `PinConfig(p)`. -/
  | config (p : PinId)
  /-- `PinWrite(p, lvl)`. -/
  | write (p : PinId) (lvl : Level)
deriving DecidableEq, Repr

/-- What one command shows outside: its response word and its pin events in order (10_state.md R20, 00_scope.md R10). -/
structure Observation where
  resp  : RespWord
  pinEv : List PinEvent
deriving DecidableEq, Repr

/-- What the host and the platform present at the input ports (10_state.md R20). -/
inductive HostInput where
  /-- A transaction: a command word and the value the Clock has when it is sampled (20_memory.md R61). -/
  | command (cmd : CmdWord) (now : ClockWord)
  /-- The port `rst`: a power-on reset (70_reset_and_hazards.md R230). -/
  | powerOnReset
deriving DecidableEq, Repr

/-- The whole model: the block, its parameters, the PinSink and the ports. -/
structure State where
  /-- The parameters of 00_scope.md R11; no step changes them. -/
  params : Params
  /-- The registers of the block. -/
  regs   : Regs
  /-- The PinSink (20_memory.md R56). -/
  sink   : PinSink
  /-- The Clock value sampled by the current transaction, zero-extended from `CLK_W` bits (20_memory.md R61). -/
  now    : ClockWord
  /-- The inputs still to come, in the host's order (20_memory.md R52). DESIGN CHOICE: notes/assumptions/2.md. -/
  host   : List HostInput
  /-- The observation so far, one entry per command, oldest first (00_scope.md R10). notes/assumptions/7.md. -/
  obs    : List Observation
deriving DecidableEq, Repr

/-- The registers at power-on reset: `configured` 0 (70_reset_and_hazards.md R230). The spec gives the others no value;
zero is the model's. DESIGN CHOICE, unsafe: notes/assumptions/1.md. -/
def Regs.reset : Regs :=
  { configured := false, stepCount := 0#3, phase1 := 0#8, phase2 := 0#8, phase3 := 0#8, position := 0#8,
    running := false, timeStep := 0#64, nextUpdate := 0#64, speedControl := false,
    pin1 := 0#8, pin2 := 0#8, pin3 := 0#8 }

/-- The PinSink at power-on (20_memory.md R56, 70_reset_and_hazards.md R230). -/
def PinSink.reset : PinSink := { isOutput := [], level := [], sinkFault := false }

/-- The machine right after power-on reset, on this hardware's parameters, with nothing presented yet. -/
def State.reset : State :=
  { params := hardwareParams, regs := Regs.reset, sink := PinSink.reset, now := 0#64, host := [], obs := [] }

end Sys2Proof.Machine
end

