-- ==== Sys2Proof/Machine/Operands.lean ====
section
/-! DEFINITION. Operand forms and the arithmetic of the commands: clock arithmetic (00_scope.md R13), pattern selection
(40_construction.md R102), the time step (41_speed_gating.md R121) and the ring (42_stepping.md R141, R143). -/

namespace Sys2Proof.Machine

/-- `n mod 2^W`, the value a `W`-bit clock register holds of the integer `n` (00_scope.md R13). -/
def wrap (w : ClkWidth) (n : Int) : ClockWord := BitVec.ofInt 64 (n % 2 ^ clockBits w)

/-- `a +_W b` (00_scope.md R13). -/
def addW (w : ClkWidth) (a b : ClockWord) : ClockWord := wrap w ((a.toNat : Int) + (b.toNat : Int))

/-- `a -_W b` (00_scope.md R13). -/
def subW (w : ClkWidth) (a b : ClockWord) : ClockWord := wrap w ((a.toNat : Int) - (b.toNat : Int))

/-- `select(ptype)` (40_construction.md R102): 0 SINGLE, 1 OVERLAP, any other value `DEFAULT_PATTERN`. -/
def selectPattern (q : Params) (ptype : BitVec 8) : PatternName :=
  if ptype = 1#8 then .overlap else if ptype = 0#8 then .single else q.defaultPattern

/-- `TimeStep(rpm, sc)`: two truncating divisions (41_speed_gating.md R121). -/
def timeStepOf (rpm sc : Nat) : Nat := usPerMin / rpm / sc

/-- `limit = 1 << step_count`, derived and not a register (10_state.md R24). -/
def ringLimit (sc : BitVec 3) : Nat := 1 <<< sc.toNat

/-- `RingFwd(p)` (42_stepping.md R141). The shift is on unbounded integers (00_scope.md R13). Positions the spec calls
invalid are reached by no run: notes/assumptions/9.md. -/
def ringFwd (sc : BitVec 3) (p : PosWord) : PosWord :=
  BitVec.ofNat 8 (if p.toNat <<< 1 = ringLimit sc then 1 else p.toNat <<< 1)

/-- `RingBwd(p)` (42_stepping.md R143). -/
def ringBwd (sc : BitVec 3) (p : PosWord) : PosWord :=
  BitVec.ofNat 8 (if p.toNat >>> 1 = 0 then ringLimit sc >>> 1 else p.toNat >>> 1)

end Sys2Proof.Machine
end

