-- ==== Sys2Proof/Machine/Flags.lean ====
section
/-! DEFINITION. The verdicts and codes of the block, which has no condition codes (10_state.md R33): the comparator
(41_speed_gating.md R124), the level of a phase (43_phase_output.md R160), the status codes (60_exceptions.md R200) and
the response word (30_encoding.md R80). -/

namespace Sys2Proof.Machine

/-- `Due(now, d) = ((now -_W d) < 2^(W-1))` (41_speed_gating.md R124). -/
def due (w : ClkWidth) (now d : ClockWord) : Bool := decide ((subW w now d).toNat < 2 ^ (clockBits w - 1))

/-- `Level(v)` (43_phase_output.md R160). -/
def levelOf (v : PosWord) : Level := if v = 0#8 then .low else .high

/-- A level stored as a bit: LOW 0, HIGH 1 (20_memory.md R55). -/
def levelBit : Level → BitVec 1
  | .low => 0#1
  | .high => 1#1

/-- The status of a response (60_exceptions.md R200). -/
inductive Status where
  /-- The command executed. -/
  | ok
  /-- `target_rpm <= 0`. -/
  | invalidArgument
  /-- Unassigned opcode, or a reserved bit set. -/
  | illegal
  /-- `configured = 0`. -/
  | unconfigured
deriving DecidableEq, Repr

/-- The two bits `[1:0]` of the response (30_encoding.md R80). -/
def statusCode : Status → BitVec 2
  | .ok => 0#2
  | .invalidArgument => 1#2
  | .illegal => 2#2
  | .unconfigured => 3#2

/-- The response word: `[7:3]` zero, `[2]` the result, `[1:0]` the status (30_encoding.md R80). -/
def respWord (st : Status) (result : Bool) : RespWord := 0#5 ++ BitVec.ofBool result ++ statusCode st

end Sys2Proof.Machine
end

