-- ==== Sys2Proof/Machine/Ops.lean ====
section
/-! DEFINITION. The named operations over the state: the PinSink (20_memory.md R56, R57), register writes, the gate
(41_speed_gating.md R123), the mux (43_phase_output.md R160), respond and raise (00_scope.md R14), power-on reset
(70_reset_and_hazards.md R230) and the start of a transaction (20_memory.md R51, R61). -/

namespace Sys2Proof.Machine

/-! ### The PinSink -/

/-- A pin added to a strictly rising list of pins; a pin already there changes nothing. -/
def insertPin (p : PinId) : List PinId → List PinId
  | [] => [p]
  | x :: xs => if p = x then x :: xs else if p < x then p :: x :: xs else x :: insertPin p xs

/-- A pin's level put into a strictly rising list of driven pins; the last write wins (20_memory.md R56). -/
def putLevel (p : PinId) (l : Level) : List (PinId × Level) → List (PinId × Level)
  | [] => [(p, l)]
  | (x, lx) :: xs =>
    if p = x then (p, l) :: xs
    else if p < x then (p, l) :: (x, lx) :: xs
    else (x, lx) :: putLevel p l xs

/-- The level a list of driven pins gives a pin: `none` where it is not listed (20_memory.md R56). -/
def getLevel (p : PinId) : List (PinId × Level) → Option Level
  | [] => none
  | (x, lx) :: xs => if p = x then some lx else getLevel p xs

/-- `is_output[p]`. -/
def isOutputAt (k : PinSink) (p : PinId) : Bool := k.isOutput.contains p

/-- `level[p]`. -/
def levelAt (k : PinSink) (p : PinId) : Option Level := getLevel p k.level

/-- The canonical form of the two lists: strictly rising pin identifiers. -/
abbrev PinSink.wf (k : PinSink) : Prop :=
  k.isOutput.Pairwise (· < ·) ∧ k.level.Pairwise (fun a b => a.1 < b.1)

/-- The PinSink's `is_output[p] <- true`. -/
def markOutput (p : PinId) (k : PinSink) : PinSink := { k with isOutput := insertPin p k.isOutput }

/-- The PinSink's `level[p] <- some lvl`. -/
def driveLevel (p : PinId) (l : Level) (k : PinSink) : PinSink := { k with level := putLevel p l k.level }

/-- The PinSink's `sink_fault <- true` (20_memory.md R57). -/
def raiseSinkFault (k : PinSink) : PinSink := { k with sinkFault := true }

/-- One pin event at the PinSink (20_memory.md R56, R57). A write does not ask whether the pin is an output:
notes/assumptions/8.md. -/
def acceptEvent (q : Params) (k : PinSink) : PinEvent → PinSink
  | .config p => if pinValid q p then markOutput p k else raiseSinkFault k
  | .write p l => if pinValid q p then driveLevel p l k else raiseSinkFault k

/-- A command's events at the PinSink, in the order they were emitted (20_memory.md R53). -/
def acceptEvents (q : Params) (k : PinSink) (evs : List PinEvent) : PinSink := evs.foldl (acceptEvent q) k

/-! ### Register writes -/

/-- `position <- p`. -/
def setPosition (p : PosWord) (s : State) : State := { s with regs := { s.regs with position := p } }

/-- `running <- b`. -/
def setRunning (b : Bool) (s : State) : State := { s with regs := { s.regs with running := b } }

/-- `speed_control <- b`. -/
def setSpeedControl (b : Bool) (s : State) : State := { s with regs := { s.regs with speedControl := b } }

/-- `next_update <- d`. -/
def setNextUpdate (d : ClockWord) (s : State) : State := { s with regs := { s.regs with nextUpdate := d } }

/-- `time_step <- v`. -/
def setTimeStep (v : ClockWord) (s : State) : State := { s with regs := { s.regs with timeStep := v } }

/-- `step_count`, `phase1..3` of a pattern and `pin1..3` (40_construction.md R104). -/
def setPattern (pat : Pattern) (s : State) : State :=
  { s with regs := { s.regs with
      stepCount := pat.stepCount
      phase1 := pat.masks.phase1
      phase2 := pat.masks.phase2
      phase3 := pat.masks.phase3 } }

/-- `pin1..3` (40_construction.md R104). -/
def setPins (p1 p2 p3 : PinId) (s : State) : State :=
  { s with regs := { s.regs with pin1 := p1, pin2 := p2, pin3 := p3 } }

/-- `configured <- 1`. -/
def setConfigured (s : State) : State := { s with regs := { s.regs with configured := true } }

/-! ### Responses -/

/-- `respond(status, result)`, with the pin events the command emitted (00_scope.md R14): the events reach the PinSink
in order and the observation gains one entry. -/
def respond (st : Status) (result : Bool) (evs : List PinEvent) (s : State) : State :=
  { s with
    sink := acceptEvents s.params s.sink evs
    obs := s.obs ++ [{ resp := respWord st result, pinEv := evs }] }

/-- `raise <Status>()`: `respond(<Status>, 0)` with no register written and no pin event (00_scope.md R14). It is no
trap: nothing is saved and control goes nowhere (60_exceptions.md R204). -/
def raise (st : Status) (s : State) : State := respond st false [] s

/-- The check every command but NEW makes first (60_exceptions.md R202): UNCONFIGURED while `configured = 0`. -/
def whenConfigured (s : State) (run : State → State) : Host.Outcome State Fault Refusal :=
  if s.regs.configured then .next (run s) else .next (raise .unconfigured s)

/-! ### Timing -/

/-- `time_step <- TimeStep(rpm, step_count)`, then the re-anchor `next_update <- now +_W time_step`
(41_speed_gating.md R121, R122). -/
def anchor (rpm : Nat) (s : State) : State :=
  let t := wrap s.params.clkW (timeStepOf rpm s.regs.stepCount.toNat)
  setNextUpdate (addW s.params.clkW s.now t) (setTimeStep t s)

/-- `ShouldUpdate()` (41_speed_gating.md R123, R125): the verdict and the state it leaves. -/
def shouldUpdate (s : State) : Bool × State :=
  if s.regs.speedControl then
    if due s.params.clkW s.now s.regs.nextUpdate then
      (true, setNextUpdate (addW s.params.clkW s.regs.nextUpdate s.regs.timeStep) s)
    else (false, s)
  else (true, s)

/-! ### Phase output -/

/-- `levels(position)` (43_phase_output.md R161). -/
def phaseLevels (r : Regs) : Level × Level × Level :=
  (levelOf (r.phase1 &&& r.position), levelOf (r.phase2 &&& r.position), levelOf (r.phase3 &&& r.position))

/-- The events of `Apply()` (43_phase_output.md R160). -/
def applyEvents (r : Regs) : List PinEvent :=
  if r.running then
    [.write r.pin1 (levelOf (r.phase1 &&& r.position)),
     .write r.pin2 (levelOf (r.phase2 &&& r.position)),
     .write r.pin3 (levelOf (r.phase3 &&& r.position))]
  else []

/-- The events of `DriveAllLow()` (43_phase_output.md R164). -/
def driveAllLowEvents (r : Regs) : List PinEvent :=
  [.write r.pin1 .low, .write r.pin2 .low, .write r.pin3 .low]

/-- STEP_FWD and STEP_BWD after the check of R202, for one of the two ring functions (42_stepping.md R140, R142). -/
def stepRing (ring : BitVec 3 → PosWord → PosWord) (s : State) : State :=
  match shouldUpdate s with
  | (false, s1) => respond .ok false [] s1
  | (true, s1) =>
    let s2 := setPosition (ring s1.regs.stepCount s1.regs.position) s1
    respond .ok true (applyEvents s2.regs) s2

/-! ### Transactions and reset -/

/-- The start of a transaction: the host's input is taken and the Clock sampled once, `CLK_W` bits wide
(20_memory.md R51, R61). -/
def beginTransaction (now : ClockWord) (rest : List HostInput) (s : State) : State :=
  { s with now := wrap s.params.clkW now.toNat, host := rest }

/-- `rst` (70_reset_and_hazards.md R230): the registers and the PinSink as at power-on; no event, no response.
notes/assumptions/6.md. -/
def powerOn (rest : List HostInput) (s : State) : State :=
  { s with regs := Regs.reset, sink := PinSink.reset, host := rest }

/-- Nothing is presented: the block waits unchanged (00_scope.md R9). notes/assumptions/3.md. -/
def idle (s : State) : State := s

/-- The transaction that presents the table's word next, sampling the clock value last sampled.
notes/assumptions/16.md. -/
def presentWord (nbits w : Nat) (s : State) : State :=
  { s with host := .command (tableWord nbits w) s.now :: s.host }

end Sys2Proof.Machine
end

