-- ==== Sys2Proof/Machine/Construction.lean ====
section
/-! DEFINITION. The construction family: NEW (40_construction.md). -/

namespace Sys2Proof.Machine

/-- The register writes of NEW (40_construction.md R104), in the order of its pseudocode. -/
def newRegisters (p1 p2 p3 : PinId) (ptype : BitVec 8) (s : State) : State :=
  setConfigured (anchor s.params.defaultRpm (setSpeedControl false (setRunning true (setPosition 1#8
    (setPins p1 p2 p3 (setPattern (patternOf s.params (selectPattern s.params ptype)) s))))))

/-- NEW (40_construction.md R104 to R106), accepted whether or not the block is configured. -/
def execNew (p1 p2 p3 : PinId) (ptype : BitVec 8) (s : State) : Host.Outcome State Fault Refusal :=
  .next (respond .ok false [.config p1, .config p2, .config p3] (newRegisters p1 p2 p3 ptype s))

end Sys2Proof.Machine
end

