-- ==== Sys2Proof/Machine/PhaseOutput.lean ====
section
/-! DEFINITION. The phase-output family: RELEASE, RESUME and APPLY (43_phase_output.md). -/

namespace Sys2Proof.Machine

/-- RELEASE (43_phase_output.md R165): the drive is unconditional. -/
def execRelease (s : State) : Host.Outcome State Fault Refusal :=
  whenConfigured s fun s => respond .ok false (driveAllLowEvents s.regs) (setRunning false s)

/-- RESUME (43_phase_output.md R166): no pin event (90_conflicts.md C1). -/
def execResume (s : State) : Host.Outcome State Fault Refusal :=
  whenConfigured s fun s => respond .ok false [] (setRunning true s)

/-- APPLY (43_phase_output.md R163): no event while released (90_conflicts.md C4). -/
def execApply (s : State) : Host.Outcome State Fault Refusal :=
  whenConfigured s fun s => respond .ok false (applyEvents s.regs) s

end Sys2Proof.Machine
end

