-- ==== Sys2Proof/Machine/SpeedGating.lean ====
section
/-! DEFINITION. The speed-gating family: SET_SPEED and SET_SPEED_CONTROL (41_speed_gating.md). -/

namespace Sys2Proof.Machine

/-- SET_SPEED (41_speed_gating.md R120, R131). -/
def execSetSpeed (rpm : Int) (s : State) : Host.Outcome State Fault Refusal :=
  whenConfigured s fun s =>
    if rpm ≤ 0 then raise .invalidArgument s else respond .ok false [] (anchor rpm.toNat s)

/-- SET_SPEED_CONTROL (41_speed_gating.md R126). -/
def execSetSpeedControl (en : Bool) (s : State) : Host.Outcome State Fault Refusal :=
  whenConfigured s fun s => respond .ok false [] (setSpeedControl en s)

end Sys2Proof.Machine
end

