-- ==== Sys2Proof/Machine/Stepping.lean ====
section
/-! DEFINITION. The stepping family: STEP_FWD and STEP_BWD (42_stepping.md). -/

namespace Sys2Proof.Machine

/-- STEP_FWD (42_stepping.md R140, R147). -/
def execStepFwd (s : State) : Host.Outcome State Fault Refusal := whenConfigured s (stepRing ringFwd)

/-- STEP_BWD (42_stepping.md R142, R147). -/
def execStepBwd (s : State) : Host.Outcome State Fault Refusal := whenConfigured s (stepRing ringBwd)

end Sys2Proof.Machine
end

