-- ==== Sys2Proof/Machine/Dispatch.lean ====
section
/-! DEFINITION. One arm per command, each a direct call of its meaning. -/

namespace Sys2Proof.Machine

def exec (i : Instr) (s : State) : Host.Outcome State Fault Refusal :=
  match i with
  | .new pin1 pin2 pin3 ptype => Sys2Proof.Machine.execNew pin1 pin2 pin3 ptype s
  | .setSpeed rpm => Sys2Proof.Machine.execSetSpeed rpm s
  | .setSpeedControl en => Sys2Proof.Machine.execSetSpeedControl en s
  | .stepFwd => Sys2Proof.Machine.execStepFwd s
  | .stepBwd => Sys2Proof.Machine.execStepBwd s
  | .release => Sys2Proof.Machine.execRelease s
  | .resume => Sys2Proof.Machine.execResume s
  | .apply => Sys2Proof.Machine.execApply s

end Sys2Proof.Machine
end

