-- ==== Sys2Proof/Machine/Step.lean ====
section
/-! DEFINITION. One step: the block takes the next input the host presents (20_memory.md R51, R52). -/

namespace Sys2Proof.Machine

/-- One transaction, or one power-on reset, or nothing where the host presents nothing. A word that does not decode
answers ILLEGAL before anything else is asked (60_exceptions.md R203, R205). -/
def step (s : State) : Host.Outcome State Fault Refusal :=
  match s.host with
  | [] => .next (idle s)
  | .powerOnReset :: rest => .next (powerOn rest s)
  | .command cmd now :: rest =>
    match decode cmd with
    | .ok i => exec i (beginTransaction now rest s)
    | .error _ => .next (raise .illegal (beginTransaction now rest s))

/-- The state in which the host presents the table's word `w` next. notes/assumptions/2.md, 16.md. -/
def State.withFetchWord (s : State) (nbits w : Nat) : State := presentWord nbits w s

end Sys2Proof.Machine
end

