-- ==== Sys2Proof/Machine/Asm.lean ====
section
/-! DEFINITION. The textual form of 30_encoding.md R82, a host tool beside the block: one line to one command word.
Choices the rule leaves open: notes/assumptions/17.md. -/

namespace Sys2Proof.Machine

/-- Why a line does not assemble. -/
inductive AsmError where
  /-- No mnemonic of R82, or its operands are not of the form R82 gives. -/
  | syntaxError
  /-- An operand out of range, which is rejected and not truncated (R82). -/
  | outOfRange
deriving DecidableEq, Repr

/-- An assembled line: the clock value of its `@t` prefix, if it has one, and the command word. -/
structure AsmLine where
  clock : Option Nat
  word  : CmdWord
deriving DecidableEq, Repr

/-- The part of a line before `;` (R82). -/
def stripComment (cs : List Char) : List Char := cs.takeWhile (· != ';')

/-- The tokens of a line, in upper case: runs of other characters between blanks, and each comma. -/
def tokensFrom : List Char → List Char → List (List Char)
  | acc, [] => if acc.isEmpty then [] else [acc.reverse]
  | acc, c :: cs =>
    let done := if acc.isEmpty then [] else [acc.reverse]
    if c = ' ' ∨ c = '\t' then done ++ tokensFrom [] cs
    else if c = ',' then done ++ [','] :: tokensFrom [] cs
    else tokensFrom (c.toUpper :: acc) cs

/-- The value of a digit in upper case. -/
def digitValue (c : Char) : Option Nat :=
  if '0' ≤ c ∧ c ≤ '9' then some (c.toNat - '0'.toNat)
  else if 'A' ≤ c ∧ c ≤ 'F' then some (c.toNat - 'A'.toNat + 10)
  else none

/-- The numeral's digits read on from a value; underscores only group digits (00_scope.md R12). Where among the digits they
may stand is open: after the first digit, anywhere and in any number. DESIGN CHOICE: notes/assumptions/17.md. -/
def digitsFrom (base : Nat) : Nat → List Char → Option Nat
  | n, [] => some n
  | n, c :: cs =>
    if c = '_' then digitsFrom base n cs
    else match digitValue c with
      | some d => if d < base then digitsFrom base (n * base + d) cs else none
      | none => none

/-- The digits of a numeral, the first of them no underscore: what has no digit to group, as `_`, or opens with an
underscore, as `_5`, is no numeral. DESIGN CHOICE: notes/assumptions/17.md. -/
def digits (base : Nat) : List Char → Option Nat
  | [] => none
  | c :: cs => if c = '_' then none else digitsFrom base 0 (c :: cs)

/-- A decimal numeral. -/
def decimal (cs : List Char) : Option Nat := digits 10 cs

/-- A hexadecimal numeral, its digits after `0x`. -/
def hexadecimal : List Char → Option Nat
  | '0' :: 'X' :: cs => digits 16 cs
  | _ => none

/-- A decimal or `0x` hexadecimal numeral (R82). -/
def numeral (cs : List Char) : Option Nat :=
  match hexadecimal cs with
  | some n => some n
  | none => decimal cs

/-- A decimal integer (R82, SET_SPEED). -/
def integer : List Char → Option Int
  | '-' :: cs => (decimal cs).map fun n => -(n : Int)
  | cs => (decimal cs).map fun n => (n : Int)

/-- An operand in 0..255. -/
def byteOperand (cs : List Char) : Except AsmError (BitVec 8) :=
  match numeral cs with
  | none => .error .syntaxError
  | some n => if n < 256 then .ok (BitVec.ofNat 8 n) else .error .outOfRange

/-- The pattern type: `SINGLE`, `OVERLAP` or a number in 0..255 (R82). -/
def patternOperand (cs : List Char) : Except AsmError (BitVec 8) :=
  if cs = "SINGLE".toList then .ok 0#8
  else if cs = "OVERLAP".toList then .ok 1#8
  else byteOperand cs

/-- NEW's operands. -/
def assembleNew (a b c pt : List Char) : Except AsmError CmdWord :=
  match byteOperand a, byteOperand b, byteOperand c, patternOperand pt with
  | .ok p1, .ok p2, .ok p3, .ok t => .ok (encode (.new p1 p2 p3 t))
  | .error e, _, _, _ => .error e
  | _, .error e, _, _ => .error e
  | _, _, .error e, _ => .error e
  | _, _, _, .error e => .error e

/-- SET_SPEED's operand, in [−2147483648, 2147483647]. -/
def assembleSetSpeed (cs : List Char) : Except AsmError CmdWord :=
  match integer cs with
  | none => .error .syntaxError
  | some n => if RpmInRange n then .ok (encode (.setSpeed n)) else .error .outOfRange

/-- SET_SPEED_CONTROL's operand, `0` or `1`. -/
def assembleSetSpeedControl (cs : List Char) : Except AsmError CmdWord :=
  match decimal cs with
  | none => .error .syntaxError
  | some n => if n < 2 then .ok (encode (.setSpeedControl (n == 1))) else .error .outOfRange

/-- A raw word. -/
def assembleRaw (cs : List Char) : Except AsmError CmdWord :=
  match hexadecimal cs with
  | none => .error .syntaxError
  | some n => if n < 2 ^ 64 then .ok (BitVec.ofNat 64 n) else .error .outOfRange

/-- The command of a line's tokens (R82). -/
def assembleTokens : List (List Char) → Except AsmError CmdWord
  | [m] =>
    if m = "STEP_FWD".toList then .ok (encode .stepFwd)
    else if m = "STEP_BWD".toList then .ok (encode .stepBwd)
    else if m = "RELEASE".toList then .ok (encode .release)
    else if m = "RESUME".toList then .ok (encode .resume)
    else if m = "APPLY".toList then .ok (encode .apply)
    else .error .syntaxError
  | [m, x] =>
    if m = "SET_SPEED".toList then assembleSetSpeed x
    else if m = "SET_SPEED_CONTROL".toList then assembleSetSpeedControl x
    else if m = ".CMD".toList then assembleRaw x
    else .error .syntaxError
  | [m, a, c1, b, c2, c, c3, pt] =>
    if m = "NEW".toList ∧ c1 = [','] ∧ c2 = [','] ∧ c3 = [','] then assembleNew a b c pt
    else .error .syntaxError
  | _ => .error .syntaxError

/-- One line (R82): nothing for a blank line or a comment, else the command with the clock value of its `@t` prefix. R82 sets
no range for `t`: any numeral is accepted and kept whole. DESIGN CHOICE: notes/assumptions/18.md. -/
def assembleLine (line : List Char) : Except AsmError (Option AsmLine) :=
  match tokensFrom [] (stripComment line) with
  | [] => .ok none
  | ('@' :: t) :: toks =>
    match numeral t, assembleTokens toks with
    | none, _ => .error .syntaxError
    | some _, .error e => .error e
    | some n, .ok w => .ok (some { clock := some n, word := w })
  | toks =>
    match assembleTokens toks with
    | .error e => .error e
    | .ok w => .ok (some { clock := none, word := w })

end Sys2Proof.Machine
end

