-- ==== Sys2Proof/Safety.lean ====
section
/-! DEFINITION. The terms claims use: the invariants of the block and its PinSink (10_state.md R38, 20_memory.md R58), the
premise ClockMonotone (20_memory.md R61), runs of several steps, and names for kinds of commands. -/

namespace Sys2Proof

open Machine

/-- `position = 1 << i` with `0 <= i < step_count`: `i` is the ring index of the position (10_state.md R25). -/
abbrev RingIndex (r : Regs) (i : Nat) : Prop :=
  i < r.stepCount.toNat ∧ r.position = BitVec.ofNat 8 (1 <<< i)

/-- The registers hold one of the two patterns of 40_construction.md R101 (10_state.md R22, R23). -/
abbrev HoldsPattern (q : Params) (r : Regs) (n : PatternName) : Prop :=
  r.stepCount = (patternOf q n).stepCount ∧ r.phase1 = (patternOf q n).masks.phase1 ∧
    r.phase2 = (patternOf q n).masks.phase2 ∧ r.phase3 = (patternOf q n).masks.phase3

/-- A pin of the last NEW: registered as an output if the PinSink accepts it, else the PinSink recorded the fault
(20_memory.md R57, R58). -/
abbrev PinRegistered (q : Params) (k : PinSink) (p : PinId) : Prop :=
  if pinValid q p = true then isOutputAt k p = true else k.sinkFault = true

/-- The invariant of the model. -/
structure Inv (s : State) : Prop where
  /-- The parameters are ones the spec admits (40_construction.md R101, R104). -/
  params      : paramsAdmissible s.params = true
  /-- R38: a configured block holds a pattern of its own. -/
  pattern     : s.regs.configured = true → ∃ n, HoldsPattern s.params s.regs n
  /-- R38: a configured block's position is one-hot inside the ring. -/
  position    : s.regs.configured = true → ∃ i, RingIndex s.regs i
  /-- R38: a configured block's masks are confined to the low `step_count` bits. -/
  masks       : s.regs.configured = true → confined s.regs.stepCount.toNat s.regs.phase1 = true ∧
    confined s.regs.stepCount.toNat s.regs.phase2 = true ∧ confined s.regs.stepCount.toNat s.regs.phase3 = true
  /-- R38: `0 <= time_step <= 20,000,000`. -/
  timeStep    : s.regs.timeStep.toNat ≤ 20000000
  /-- The deadline and the clock sample are `CLK_W` bits wide (10_state.md R28, R20). -/
  deadline    : s.regs.nextUpdate.toNat < 2 ^ clockBits s.params.clkW
  sample      : s.now.toNat < 2 ^ clockBits s.params.clkW
  /-- The PinSink's lists are in canonical form. -/
  canonical   : s.sink.wf
  /-- R58: a configured block's pins have been registered. -/
  pins        : s.regs.configured = true → PinRegistered s.params s.sink s.regs.pin1 ∧
    PinRegistered s.params s.sink s.regs.pin2 ∧ PinRegistered s.params s.sink s.regs.pin3
  /-- R58: a pin the block has driven is an output. -/
  driven      : ∀ p, levelAt s.sink p ≠ none → isOutputAt s.sink p = true

/-- The value a `W`-bit clock shows at true time `t` (20_memory.md R60). -/
abbrev sampleAt (w : ClkWidth) (t : Nat) : ClockWord := wrap w (t : Int)

/-- `ClockMonotone` (20_memory.md R61): the true times of successive samples do not fall, and less than `2^CLK_W` passes
from one to the next. -/
def clockMonotone (w : ClkWidth) : List Nat → Bool
  | a :: b :: ts => decide (a ≤ b) && decide (b - a < 2 ^ clockBits w) && clockMonotone w (b :: ts)
  | _ => true

/-- `k` steps, stopping at the first that answers no next state. -/
def runSteps : Nat → State → Host.Outcome State Fault Refusal
  | 0, s => .next s
  | k + 1, s =>
    match step s with
    | .next t => runSteps k t
    | .fault r => .fault r
    | .refused r => .refused r

/-- The command is NEW. -/
def isNew : Instr → Bool
  | .new _ _ _ _ => true
  | .setSpeed _ => false
  | .setSpeedControl _ => false
  | .stepFwd => false
  | .stepBwd => false
  | .release => false
  | .resume => false
  | .apply => false

/-- The command is STEP_FWD or STEP_BWD. -/
def isStep : Instr → Bool
  | .new _ _ _ _ => false
  | .setSpeed _ => false
  | .setSpeedControl _ => false
  | .stepFwd => true
  | .stepBwd => true
  | .release => false
  | .resume => false
  | .apply => false

/-- The command is SET_SPEED. -/
def isSetSpeed : Instr → Bool
  | .new _ _ _ _ => false
  | .setSpeed _ => true
  | .setSpeedControl _ => false
  | .stepFwd => false
  | .stepBwd => false
  | .release => false
  | .resume => false
  | .apply => false

/-- The command is SET_SPEED with a target speed it rejects (60_exceptions.md R206). -/
def isBadSpeed : Instr → Bool
  | .new _ _ _ _ => false
  | .setSpeed rpm => decide (rpm ≤ 0)
  | .setSpeedControl _ => false
  | .stepFwd => false
  | .stepBwd => false
  | .release => false
  | .resume => false
  | .apply => false

/-- A word that is a STEP command in one of the two directions. -/
def stepWord (forward : Bool) : CmdWord := if forward then 0x0400000000000000#64 else 0x0500000000000000#64

/-- A response that reports a step taken (30_encoding.md R81). -/
def tookStep (o : Observation) : Bool := o.resp == 0x04#8

/-- The status field of a response, `[1:0]` (30_encoding.md R80). -/
def statusField (o : Observation) : BitVec 2 := o.resp.extractLsb' 0 2

/-- The last write to a pin among some events, if there is one (20_memory.md R56). -/
def lastWrite (p : PinId) (evs : List PinEvent) : Option Level :=
  evs.foldl (fun acc e => match e with
    | .write x l => if x = p then some l else acc
    | .config _ => acc) none

end Sys2Proof
end

