-- ==== Sys2Proof/Certificates/Slice0/Obligations.lean ====
section
/-! DEFINITION. The statements for the provers. Each docstring names the rules of spec/ it formalises. -/

open Sys2Proof Sys2Proof.Machine

/-! ### Encoding -/

/-- 30_encoding.md R79 with the fields of R72, R73 and R74: a word whose masked bits match a row of the opcode table decodes
to that row's command with its operands, and a word that matches no row decodes to none. -/
def Obligations.DecodeReadsEveryRow : Prop :=
  ∀ w : CmdWord,
    (w &&& 0xFFFFFFFF00000000#64 = 0x0100000000000000#64 →
      decode w = .ok (.new (w.extractLsb' 0 8) (w.extractLsb' 8 8) (w.extractLsb' 16 8) (w.extractLsb' 24 8))) ∧
    (w &&& 0xFFFFFFFF00000000#64 = 0x0200000000000000#64 → decode w = .ok (.setSpeed (w.extractLsb' 0 32).toInt)) ∧
    (w &&& 0xFFFFFFFFFFFFFFFE#64 = 0x0300000000000000#64 → decode w = .ok (.setSpeedControl (w.getLsbD 0))) ∧
    (w = 0x0400000000000000#64 → decode w = .ok .stepFwd) ∧
    (w = 0x0500000000000000#64 → decode w = .ok .stepBwd) ∧
    (w = 0x0600000000000000#64 → decode w = .ok .release) ∧
    (w = 0x0700000000000000#64 → decode w = .ok .resume) ∧
    (w = 0x0800000000000000#64 → decode w = .ok .apply) ∧
    (w &&& 0xFFFFFFFF00000000#64 ≠ 0x0100000000000000#64 → w &&& 0xFFFFFFFF00000000#64 ≠ 0x0200000000000000#64 →
      w &&& 0xFFFFFFFFFFFFFFFE#64 ≠ 0x0300000000000000#64 → w ≠ 0x0400000000000000#64 → w ≠ 0x0500000000000000#64 →
      w ≠ 0x0600000000000000#64 → w ≠ 0x0700000000000000#64 → w ≠ 0x0800000000000000#64 → ∃ e, decode w = .error e)

/-- Decoding the word of a well-formed command gives the command back, with every operand at every value its field admits
(30_encoding.md R70 to R77). -/
def Obligations.DecodeOfEncode : Prop := ∀ i : Instr, i.wellFormed = true → decode (encode i) = .ok i

/-- A word that decodes is the word of the command it decodes to, which is well-formed (30_encoding.md R79). -/
def Obligations.EncodeOfDecode : Prop := ∀ (w : CmdWord) (i : Instr), decode w = .ok i → i.wellFormed = true ∧ encode i = w

/-- The twelve rows of 30_encoding.md R83: each line of assembly assembles to its word, and the word decodes to the command. -/
def Obligations.CommonCommandWords : Prop :=
  (assembleLine "NEW 9, 10, 11, SINGLE".toList = .ok (some ⟨none, 0x01000000000B0A09#64⟩) ∧
    decode 0x01000000000B0A09#64 = .ok (.new 9#8 10#8 11#8 0#8)) ∧
  (assembleLine "NEW 9, 10, 11, OVERLAP".toList = .ok (some ⟨none, 0x01000000010B0A09#64⟩) ∧
    decode 0x01000000010B0A09#64 = .ok (.new 9#8 10#8 11#8 1#8)) ∧
  (assembleLine "SET_SPEED 500".toList = .ok (some ⟨none, 0x02000000000001F4#64⟩) ∧
    decode 0x02000000000001F4#64 = .ok (.setSpeed 500)) ∧
  (assembleLine "SET_SPEED 0".toList = .ok (some ⟨none, 0x0200000000000000#64⟩) ∧
    decode 0x0200000000000000#64 = .ok (.setSpeed 0)) ∧
  (assembleLine "SET_SPEED -5".toList = .ok (some ⟨none, 0x02000000FFFFFFFB#64⟩) ∧
    decode 0x02000000FFFFFFFB#64 = .ok (.setSpeed (-5))) ∧
  (assembleLine "SET_SPEED_CONTROL 1".toList = .ok (some ⟨none, 0x0300000000000001#64⟩) ∧
    decode 0x0300000000000001#64 = .ok (.setSpeedControl true)) ∧
  (assembleLine "SET_SPEED_CONTROL 0".toList = .ok (some ⟨none, 0x0300000000000000#64⟩) ∧
    decode 0x0300000000000000#64 = .ok (.setSpeedControl false)) ∧
  (assembleLine "STEP_FWD".toList = .ok (some ⟨none, 0x0400000000000000#64⟩) ∧
    decode 0x0400000000000000#64 = .ok .stepFwd) ∧
  (assembleLine "STEP_BWD".toList = .ok (some ⟨none, 0x0500000000000000#64⟩) ∧
    decode 0x0500000000000000#64 = .ok .stepBwd) ∧
  (assembleLine "RELEASE".toList = .ok (some ⟨none, 0x0600000000000000#64⟩) ∧
    decode 0x0600000000000000#64 = .ok .release) ∧
  (assembleLine "RESUME".toList = .ok (some ⟨none, 0x0700000000000000#64⟩) ∧
    decode 0x0700000000000000#64 = .ok .resume) ∧
  (assembleLine "APPLY".toList = .ok (some ⟨none, 0x0800000000000000#64⟩) ∧
    decode 0x0800000000000000#64 = .ok .apply)

/-- 20_memory.md R62, its byte-order clause: byte `k` of a command word moved as bytes is bits `[8k+7:8k]`, and decoding the
bytes of a word is decoding the word. -/
def Obligations.CommandBytesAreLittleEndian : Prop :=
  ∀ (w : CmdWord) (rest : List CmdByte),
    (∀ k, k < 8 → (cmdBytes w)[k]? = some (w.extractLsb' (8 * k) 8)) ∧ (cmdBytes w).length = 8 ∧
    (∀ i, decode w = .ok i → decodeBytes (cmdBytes w ++ rest) = .ok (i, rest)) ∧
    (∀ e, decode w = .error e → decodeBytes (cmdBytes w ++ rest) = .error e)

/-! ### Transactions -/

/-- Where the next input is a word that decodes to `i`, the step is `exec i`, on the state whose input is taken and whose
clock sample is the one presented, `CLK_W` bits wide (20_memory.md R51, R61). -/
def Obligations.StepRunsTheDecodedCommand : Prop :=
  ∀ (s : State) (cmd : CmdWord) (now : ClockWord) (rest : List HostInput) (i : Instr),
    s.host = .command cmd now :: rest → decode cmd = .ok i →
    step s = exec i { s with now := BitVec.ofNat 64 (now.toNat % 2 ^ clockBits s.params.clkW), host := rest }

/-- Every step answers a next state: every command completes, no word hangs the block, and the block takes no trap
(20_memory.md R51, 60_exceptions.md R203, R204). That the step with nothing presented answers the same state is the
model's choice, notes/assumptions/3.md. -/
def Obligations.EveryStepCompletes : Prop :=
  ∀ s : State, (∃ t, step s = .next t) ∧ (s.host = [] → step s = .next s)

/-- 30_encoding.md R80: every command, legal or not, produces exactly one response, with the reserved bits 0, the result bit
1 exactly where a step is taken (a step command on a configured block whose gate is open) and then with status OK, and
one of the four status codes. -/
def Obligations.OneResponsePerCommand : Prop :=
  ∀ (s : State) (cmd : CmdWord) (now : ClockWord) (rest : List HostInput),
    s.host = .command cmd now :: rest →
    ∃ t o, step s = .next t ∧ t.obs = s.obs ++ [o] ∧ t.host = rest ∧
      o.resp.extractLsb' 3 5 = 0#5 ∧
      (o.resp.getLsbD 2 = true → statusField o = 0#2) ∧
      (o.resp.getLsbD 2 = true ↔
        (decode cmd = .ok .stepFwd ∨ decode cmd = .ok .stepBwd) ∧ s.regs.configured = true ∧
        (s.regs.speedControl = true → due s.params.clkW t.now s.regs.nextUpdate = true)) ∧
      (statusField o = 0#2 ∨ statusField o = 1#2 ∨ statusField o = 2#2 ∨ statusField o = 3#2)

/-- 30_encoding.md R81: the possible response values, and which commands produce 0x04 and 0x01. -/
def Obligations.PossibleResponses : Prop :=
  ∀ (s t : State) (cmd : CmdWord) (now : ClockWord) (rest : List HostInput) (o : Observation),
    s.host = .command cmd now :: rest → step s = .next t → t.obs = s.obs ++ [o] →
    (o.resp = 0x00#8 ∨ o.resp = 0x04#8 ∨ o.resp = 0x01#8 ∨ o.resp = 0x02#8 ∨ o.resp = 0x03#8) ∧
    (o.resp = 0x04#8 → decode cmd = .ok .stepFwd ∨ decode cmd = .ok .stepBwd) ∧
    (o.resp = 0x01#8 → ∃ rpm, decode cmd = .ok (.setSpeed rpm))

/-- 60_exceptions.md R205: ILLEGAL, then UNCONFIGURED, then INVALID_ARGUMENT, otherwise OK; the first that holds is the one
status reported. -/
def Obligations.StatusPriority : Prop :=
  ∀ (s : State) (cmd : CmdWord) (now : ClockWord) (rest : List HostInput),
    s.host = .command cmd now :: rest →
    ∃ t o, step s = .next t ∧ t.obs = s.obs ++ [o] ∧
      statusField o = (match decode cmd with
        | .error _ => 2#2
        | .ok i =>
          if s.regs.configured = false ∧ isNew i = false then 3#2
          else if isBadSpeed i = true then 1#2
          else 0#2)

/-- 60_exceptions.md R201: a command whose status is not OK writes no register and emits no pin event; its only effect is
its response. -/
def Obligations.RejectedCommandHasNoEffect : Prop :=
  ∀ (s t : State) (cmd : CmdWord) (now : ClockWord) (rest : List HostInput) (o : Observation),
    s.host = .command cmd now :: rest → step s = .next t → t.obs = s.obs ++ [o] → statusField o ≠ 0#2 →
    o.pinEv = [] ∧ t = { beginTransaction now rest s with obs := s.obs ++ [o] }

/-- 60_exceptions.md R203: a word with an unassigned opcode, or with an assigned one and a reserved bit of its format set,
answers ILLEGAL and does nothing else, whatever the state; every other word is a command, and no word hangs the block. -/
def Obligations.IllegalWordsAnswerIllegal : Prop :=
  ∀ (s : State) (cmd : CmdWord) (now : ClockWord) (rest : List HostInput),
    s.host = .command cmd now :: rest →
    let illegal : Prop := opcodeField cmd = 0x00#8 ∨ 0x09#8 ≤ opcodeField cmd ∨
      (opcodeField cmd = 0x01#8 ∧ cmd &&& 0x00FFFFFF00000000#64 ≠ 0#64) ∨
      (opcodeField cmd = 0x02#8 ∧ cmd &&& 0x00FFFFFF00000000#64 ≠ 0#64) ∨
      (opcodeField cmd = 0x03#8 ∧ cmd &&& 0x00FFFFFFFFFFFFFE#64 ≠ 0#64) ∨
      (0x04#8 ≤ opcodeField cmd ∧ opcodeField cmd ≤ 0x08#8 ∧ cmd &&& 0x00FFFFFFFFFFFFFF#64 ≠ 0#64)
    (illegal → step s = .next { beginTransaction now rest s with obs := s.obs ++ [⟨0x02#8, []⟩] }) ∧
    (¬illegal → ∃ i, decode cmd = .ok i) ∧ ∃ t, step s = .next t

/-- 60_exceptions.md R202: a legal command other than NEW, presented while `configured = 0`, answers UNCONFIGURED and does
nothing else. -/
def Obligations.UnconfiguredBlockRejects : Prop :=
  ∀ (s : State) (i : Instr), s.regs.configured = false → isNew i = false →
    exec i s = .next { s with obs := s.obs ++ [⟨0x03#8, []⟩] }

/-- No step changes the parameters, and each takes at most one input (00_scope.md R11, 20_memory.md R52). -/
def Obligations.StepTakesOneInput : Prop :=
  ∀ s t : State, step s = .next t → t.params = s.params ∧ t.host = s.host.tail

/-- 10_state.md R35: which command may change which register, over one command. -/
def Obligations.RegisterWriters : Prop :=
  ∀ (s t : State) (cmd : CmdWord) (now : ClockWord) (rest : List HostInput),
    s.host = .command cmd now :: rest → step s = .next t →
    (t.regs.configured ≠ s.regs.configured → ∃ i, decode cmd = .ok i ∧ isNew i = true ∧ t.regs.configured = true) ∧
    ((t.regs.stepCount ≠ s.regs.stepCount ∨ t.regs.phase1 ≠ s.regs.phase1 ∨ t.regs.phase2 ≠ s.regs.phase2 ∨
        t.regs.phase3 ≠ s.regs.phase3 ∨ t.regs.pin1 ≠ s.regs.pin1 ∨ t.regs.pin2 ≠ s.regs.pin2 ∨
        t.regs.pin3 ≠ s.regs.pin3) → ∃ i, decode cmd = .ok i ∧ isNew i = true) ∧
    (t.regs.position ≠ s.regs.position → ∃ i, decode cmd = .ok i ∧
      ((isNew i = true ∧ t.regs.position = 1#8) ∨
        (isStep i = true ∧ (s.regs.speedControl = true → due s.params.clkW t.now s.regs.nextUpdate = true)))) ∧
    (t.regs.running ≠ s.regs.running → ∃ i, decode cmd = .ok i ∧
      ((isNew i = true ∧ t.regs.running = true) ∨ (i = .release ∧ t.regs.running = false) ∨
        (i = .resume ∧ t.regs.running = true))) ∧
    (t.regs.speedControl ≠ s.regs.speedControl → ∃ i, decode cmd = .ok i ∧
      ((isNew i = true ∧ t.regs.speedControl = false) ∨ i = .setSpeedControl t.regs.speedControl)) ∧
    (t.regs.timeStep ≠ s.regs.timeStep → ∃ i, decode cmd = .ok i ∧ (isNew i = true ∨ isSetSpeed i = true)) ∧
    (t.regs.nextUpdate ≠ s.regs.nextUpdate → ∃ i, decode cmd = .ok i ∧ (isNew i = true ∨ isSetSpeed i = true ∨
      (isStep i = true ∧ s.regs.speedControl = true ∧ due s.params.clkW t.now s.regs.nextUpdate = true)))

/-- Which commands emit which pin events (20_memory.md R55), and that every write names one of the block's three pins and,
where the PinSink accepts the pin, a pin it has as an output (20_memory.md R58). -/
def Obligations.PinEventSources : Prop :=
  ∀ (s t : State) (cmd : CmdWord) (now : ClockWord) (rest : List HostInput) (o : Observation),
    Inv s → s.host = .command cmd now :: rest → step s = .next t → t.obs = s.obs ++ [o] →
    (∀ p, .config p ∈ o.pinEv → ∃ i, decode cmd = .ok i ∧ isNew i = true) ∧
    (∀ p l, .write p l ∈ o.pinEv →
      (decode cmd = .ok .stepFwd ∨ decode cmd = .ok .stepBwd ∨ decode cmd = .ok .apply ∨ decode cmd = .ok .release) ∧
      (p = s.regs.pin1 ∨ p = s.regs.pin2 ∨ p = s.regs.pin3) ∧
      (pinValid s.params p = true → isOutputAt s.sink p = true))

/-! ### Reset -/

/-- Power-on reset, in State.reset and as an input in the middle of a run (70_reset_and_hazards.md R230, 20_memory.md R56):
`configured` is 0, every pin is no output and not driven, `sink_fault` is false; no response and no event. That the input
leaves the parameters, the observation and the rest of the inputs is the model's reading, notes/assumptions/6.md. -/
def Obligations.PowerOnReset : Prop :=
  (State.reset.regs.configured = false ∧ State.reset.sink.sinkFault = false ∧
    (∀ p, isOutputAt State.reset.sink p = false ∧ levelAt State.reset.sink p = none) ∧ State.reset.obs = []) ∧
  (∀ (s : State) (rest : List HostInput), s.host = .powerOnReset :: rest →
    ∃ t, step s = .next t ∧ t.regs.configured = false ∧ t.sink.sinkFault = false ∧
      (∀ p, isOutputAt t.sink p = false ∧ levelAt t.sink p = none) ∧
      t.obs = s.obs ∧ t.host = rest ∧ t.params = s.params)

/-- No value an unconfigured block's registers hold is ever observed, nor is it left in a register once the block is
configured: two runs that differ only in those registers answer the same responses and the same pin events and reach
the same PinSink, step by step (10_state.md R37, 60_exceptions.md R202). The zero of notes/assumptions/1.md cannot be
seen. -/
def Obligations.UnconfiguredRegistersAreUnobservable : Prop :=
  ∀ (n : Nat) (s t : State) (r : Regs), s.regs.configured = false → r.configured = false → runSteps n s = .next t →
    ∃ u, runSteps n { s with regs := r } = .next u ∧ u.obs = t.obs ∧ u.sink = t.sink ∧ u.host = t.host ∧
      u.regs.configured = t.regs.configured ∧ (t.regs.configured = true → u = t)

/-! ### Construction -/

/-- 40_construction.md R104: NEW, accepted in every state, with every register it writes. -/
def Obligations.NewConstructs : Prop :=
  ∀ (s : State) (p1 p2 p3 : PinId) (pt : BitVec 8), ∃ t, exec (.new p1 p2 p3 pt) s = .next t ∧
    HoldsPattern s.params t.regs (if pt = 1#8 then .overlap else if pt = 0#8 then .single else s.params.defaultPattern) ∧
    t.regs.pin1 = p1 ∧ t.regs.pin2 = p2 ∧ t.regs.pin3 = p3 ∧ t.regs.position = 1#8 ∧ t.regs.running = true ∧
    t.regs.speedControl = false ∧ t.regs.configured = true ∧
    t.regs.timeStep.toNat = 60000000 / s.params.defaultRpm / t.regs.stepCount.toNat ∧
    t.regs.nextUpdate.toNat = (s.now.toNat + t.regs.timeStep.toNat) % 2 ^ clockBits s.params.clkW ∧
    t.obs = s.obs ++ [⟨0x00#8, [.config p1, .config p2, .config p3]⟩] ∧
    t.sink = acceptEvents s.params s.sink [.config p1, .config p2, .config p3] ∧
    t.params = s.params ∧ t.now = s.now ∧ t.host = s.host

/-- What NEW leaves at the PinSink (40_construction.md R105, R106; 20_memory.md R57): no level of any pin changes, old outputs
stay outputs, the new pins become outputs where the PinSink accepts them and set `sink_fault` where it does not. -/
def Obligations.NewDrivesNoPin : Prop :=
  ∀ (s t : State) (p1 p2 p3 : PinId) (pt : BitVec 8), exec (.new p1 p2 p3 pt) s = .next t →
    (∀ p, levelAt t.sink p = levelAt s.sink p) ∧
    (∀ p, isOutputAt t.sink p = true ↔
      isOutputAt s.sink p = true ∨ ((p = p1 ∨ p = p2 ∨ p = p3) ∧ pinValid s.params p = true)) ∧
    (t.sink.sinkFault = true ↔ s.sink.sinkFault = true ∨ pinValid s.params p1 = false ∨
      pinValid s.params p2 = false ∨ pinValid s.params p3 = false)

/-- 40_construction.md R101 and R102 on this hardware's parameters, with the time steps of 10_state.md R37: ptype 1 gives
OVERLAP, every other value SINGLE. -/
def Obligations.PatternTableOfThisHardware : Prop :=
  ∀ (s : State) (p1 p2 p3 : PinId) (pt : BitVec 8), s.params = hardwareParams →
    ∃ t, exec (.new p1 p2 p3 pt) s = .next t ∧
      (pt = 1#8 → t.regs.stepCount = 6#3 ∧ ringLimit t.regs.stepCount = 64 ∧ t.regs.phase1 = 0x38#8 ∧
        t.regs.phase2 = 0x0E#8 ∧ t.regs.phase3 = 0x23#8 ∧ t.regs.timeStep = 20000#64) ∧
      (pt ≠ 1#8 → t.regs.stepCount = 3#3 ∧ ringLimit t.regs.stepCount = 8 ∧ t.regs.phase1 = 0x04#8 ∧
        t.regs.phase2 = 0x02#8 ∧ t.regs.phase3 = 0x01#8 ∧ t.regs.timeStep = 40000#64)

/-- The first STEP_FWD after a NEW drives position 2, not position 1 (70_reset_and_hazards.md R241). -/
def Obligations.FirstStepDrivesPositionTwo : Prop :=
  ∀ (s t : State) (p1 p2 p3 : PinId) (pt : BitVec 8), exec (.new p1 p2 p3 pt) s = .next t →
    ∃ u, exec .stepFwd t = .next u ∧ u.regs = { t.regs with position := 2#8 } ∧
      u.obs = t.obs ++ [⟨0x04#8, [.write p1 (levelOf (t.regs.phase1 &&& 2#8)),
        .write p2 (levelOf (t.regs.phase2 &&& 2#8)), .write p3 (levelOf (t.regs.phase3 &&& 2#8))]⟩]

/-! ### Speed gating -/

/-- 41_speed_gating.md R121: the time step, its range, its equality with the one-stage division, and where it is 0. -/
def Obligations.TimeStepRange : Prop :=
  ∀ rpm : Nat, 1 ≤ rpm → ∀ sc : Nat, sc = 3 ∨ sc = 6 →
    timeStepOf rpm sc = 60000000 / rpm / sc ∧ timeStepOf rpm sc ≤ 20000000 ∧ timeStepOf rpm sc = 60000000 / (rpm * sc) ∧
    (timeStepOf rpm sc = 0 ↔ (if sc = 3 then 20000000 else 10000000) < rpm)

/-- 41_speed_gating.md R120 and R131: UNCONFIGURED on an unconfigured block; else a speed of 0 or below is rejected and
writes nothing; any other sets the time step and re-anchors the deadline, and changes nothing else. -/
def Obligations.SetSpeedReanchors : Prop :=
  ∀ (s : State) (rpm : Int),
    (s.regs.configured = false → exec (.setSpeed rpm) s = .next { s with obs := s.obs ++ [⟨0x03#8, []⟩] }) ∧
    (s.regs.configured = true → rpm ≤ 0 → exec (.setSpeed rpm) s = .next { s with obs := s.obs ++ [⟨0x01#8, []⟩] }) ∧
    (s.regs.configured = true → 0 < rpm → ∃ t, exec (.setSpeed rpm) s = .next t ∧
      t.regs = { s.regs with timeStep := t.regs.timeStep, nextUpdate := t.regs.nextUpdate } ∧
      t.regs.timeStep.toNat = 60000000 / rpm.toNat / s.regs.stepCount.toNat ∧
      t.regs.nextUpdate.toNat = (s.now.toNat + t.regs.timeStep.toNat) % 2 ^ clockBits s.params.clkW ∧
      t.obs = s.obs ++ [⟨0x00#8, []⟩] ∧ t.sink = s.sink ∧ t.params = s.params ∧ t.now = s.now ∧ t.host = s.host)

/-- 41_speed_gating.md R126: UNCONFIGURED on an unconfigured block; else the operand is written, and nothing else changes. -/
def Obligations.SetSpeedControlWritesTheFlag : Prop :=
  ∀ (s : State) (en : Bool),
    (s.regs.configured = false → exec (.setSpeedControl en) s = .next { s with obs := s.obs ++ [⟨0x03#8, []⟩] }) ∧
    (s.regs.configured = true → exec (.setSpeedControl en) s =
      .next { s with regs := { s.regs with speedControl := en }, obs := s.obs ++ [⟨0x00#8, []⟩] })

/-- 41_speed_gating.md R124: the comparator, its equality case, its sign-bit form, and its correctness for true times whose
distance lies in the comparator's range. -/
def Obligations.ComparatorIsWraparoundSafe : Prop :=
  ∀ w : ClkWidth,
    (∀ now d : ClockWord, due w now d = true ↔
      ((now.toNat : Int) - (d.toNat : Int)) % 2 ^ clockBits w < 2 ^ (clockBits w - 1)) ∧
    (∀ now d : ClockWord, due w now d = true ↔ (subW w now d).getLsbD (clockBits w - 1) = false) ∧
    (∀ now : ClockWord, due w now now = true) ∧
    (∀ tn td : Int, -(2 ^ (clockBits w - 1)) ≤ tn - td → tn - td < 2 ^ (clockBits w - 1) →
      (due w (wrap w tn) (wrap w td) = true ↔ td ≤ tn))

/-- 41_speed_gating.md R123 and R125: the gate. -/
def Obligations.GateVerdict : Prop :=
  ∀ s : State,
    (s.regs.speedControl = false → shouldUpdate s = (true, s)) ∧
    (s.regs.speedControl = true → due s.params.clkW s.now s.regs.nextUpdate = true →
      ∃ d : ClockWord, d.toNat = (s.regs.nextUpdate.toNat + s.regs.timeStep.toNat) % 2 ^ clockBits s.params.clkW ∧
        shouldUpdate s = (true, { s with regs := { s.regs with nextUpdate := d } })) ∧
    (s.regs.speedControl = true → due s.params.clkW s.now s.regs.nextUpdate = false → shouldUpdate s = (false, s))

/-- Under `ClockMonotone` the elapsed time between two samples is their wrapped difference (20_memory.md R61). -/
def Obligations.ElapsedTimeOfSamples : Prop :=
  ∀ (w : ClkWidth) (a b : Nat), clockMonotone w [a, b] = true →
    (subW w (sampleAt w b) (sampleAt w a)).toNat = b - a

/-- 41_speed_gating.md R127, its burst: a call that arrives `L` late is due, and so are up to `floor(L / T) + 1` calls at the
same clock value, in either direction, each moving the deadline on by `T`. -/
def Obligations.LateCallsCatchUp : Prop :=
  ∀ (s : State) (L : Nat) (dirs : List Bool) (now : ClockWord) (rest : List HostInput),
    s.regs.configured = true → s.regs.speedControl = true → 0 < s.regs.timeStep.toNat →
    s.regs.nextUpdate.toNat < 2 ^ clockBits s.params.clkW →
    L + s.regs.timeStep.toNat < 2 ^ (clockBits s.params.clkW - 1) →
    now = sampleAt s.params.clkW (s.regs.nextUpdate.toNat + L) →
    s.host = dirs.map (fun f => HostInput.command (stepWord f) now) ++ rest →
    dirs.length ≤ L / s.regs.timeStep.toNat + 1 →
    ∃ t os, runSteps dirs.length s = .next t ∧ t.obs = s.obs ++ os ∧ os.length = dirs.length ∧
      (∀ o ∈ os, o.resp = 0x04#8) ∧
      t.regs.nextUpdate = sampleAt s.params.clkW (s.regs.nextUpdate.toNat + dirs.length * s.regs.timeStep.toNat)

/-- The pacing law (41_speed_gating.md R128): after a re-anchor at true time `a`, over any row of STEP commands of either
direction under speed control whose clock is monotone and whose distances stay in the comparator's range, the number of
steps taken by a call at true time `t` is at most `(t − a) / T`: the k-th is taken at `a + k*T` or later. -/
def Obligations.GatedStepsKeepThePace : Prop :=
  ∀ (s : State) (a : Nat) (calls : List (Bool × Nat)) (rest : List HostInput),
    s.regs.configured = true → s.regs.speedControl = true → s.regs.timeStep.toNat ≤ 20000000 →
    s.regs.nextUpdate = sampleAt s.params.clkW (a + s.regs.timeStep.toNat) →
    s.host = calls.map (fun c => HostInput.command (stepWord c.1) (sampleAt s.params.clkW c.2)) ++ rest →
    clockMonotone s.params.clkW (a :: calls.map Prod.snd) = true →
    (∀ c ∈ calls, c.2 < a + s.regs.timeStep.toNat + 2 ^ (clockBits s.params.clkW - 1)) →
    ∃ t os, runSteps calls.length s = .next t ∧ t.obs = s.obs ++ os ∧ os.length = calls.length ∧ t.host = rest ∧
      t.regs.timeStep = s.regs.timeStep ∧
      t.regs.nextUpdate = sampleAt s.params.clkW (a + (os.countP tookStep + 1) * s.regs.timeStep.toNat) ∧
      (∀ c, calls.getLast? = some c → a + os.countP tookStep * s.regs.timeStep.toNat ≤ c.2 ∧
        (0 < s.regs.timeStep.toNat → os.countP tookStep ≤ (c.2 - a) / s.regs.timeStep.toNat))

/-- 41_speed_gating.md R129: a deadline `x` microseconds behind the clock with `2^(W−1) ≤ x < 2^W` reads as not due, and a
gated step of either direction then does nothing but answer 0x00. -/
def Obligations.ComparatorRangeStall : Prop :=
  ∀ (s : State) (x : Nat) (i : Instr), isStep i = true → s.regs.configured = true → s.regs.speedControl = true →
    2 ^ (clockBits s.params.clkW - 1) ≤ x → x < 2 ^ clockBits s.params.clkW →
    s.now = sampleAt s.params.clkW (s.regs.nextUpdate.toNat + x) →
    exec i s = .next { s with obs := s.obs ++ [⟨0x00#8, []⟩] }

/-- 41_speed_gating.md R130: with a zero time step under speed control, every call less than `2^(W−1)` microseconds past the
deadline takes a step and leaves the deadline where it is. -/
def Obligations.ZeroTimeStepStepsOnEveryCall : Prop :=
  ∀ (s : State) (x : Nat) (i : Instr), isStep i = true → s.regs.configured = true → s.regs.speedControl = true →
    s.regs.timeStep = 0#64 → s.regs.nextUpdate.toNat < 2 ^ clockBits s.params.clkW →
    x < 2 ^ (clockBits s.params.clkW - 1) → s.now = sampleAt s.params.clkW (s.regs.nextUpdate.toNat + x) →
    ∃ t o, exec i s = .next t ∧ t.obs = s.obs ++ [o] ∧ o.resp = 0x04#8 ∧
      t.regs = { s.regs with position := t.regs.position }

/-- A SET_SPEED less than one time step old leaves no step due (70_reset_and_hazards.md R246). -/
def Obligations.RepeatedSetSpeedStarves : Prop :=
  ∀ (s t : State) (rpm : Int) (e : Nat) (i : Instr), isStep i = true → s.regs.configured = true →
    s.regs.speedControl = true → (s.regs.stepCount = 3#3 ∨ s.regs.stepCount = 6#3) → 0 < rpm →
    exec (.setSpeed rpm) s = .next t → e < t.regs.timeStep.toNat →
    exec i { t with now := sampleAt s.params.clkW (s.now.toNat + e) } =
      .next { t with now := sampleAt s.params.clkW (s.now.toNat + e), obs := t.obs ++ [⟨0x00#8, []⟩] }

/-! ### Stepping -/

/-- 42_stepping.md R140 and R141: UNCONFIGURED on an unconfigured block; result 0 and nothing else where the gate is closed; where
it is open, a STEP_FWD moves ring index `i` to `i + 1`, wrapping at `step_count`, moves the deadline on under speed control only, and drives the three pins at the
new position if running. -/
def Obligations.StepFwdGatesMovesAndDrives : Prop :=
  ∀ s : State,
    (s.regs.configured = false → exec .stepFwd s = .next { s with obs := s.obs ++ [⟨0x03#8, []⟩] }) ∧
    (s.regs.configured = true → s.regs.speedControl = true → due s.params.clkW s.now s.regs.nextUpdate = false →
      exec .stepFwd s = .next { s with obs := s.obs ++ [⟨0x00#8, []⟩] }) ∧
    (∀ i : Nat, s.regs.configured = true → (s.regs.stepCount = 3#3 ∨ s.regs.stepCount = 6#3) → RingIndex s.regs i →
      (s.regs.speedControl = true → due s.params.clkW s.now s.regs.nextUpdate = true) →
      ∃ t evs, exec .stepFwd s = .next t ∧
        t.regs.position = BitVec.ofNat 8 (1 <<< ((i + 1) % s.regs.stepCount.toNat)) ∧
        t.regs = { s.regs with position := t.regs.position, nextUpdate := t.regs.nextUpdate } ∧
        (s.regs.speedControl = false → t.regs.nextUpdate = s.regs.nextUpdate) ∧
        (s.regs.speedControl = true → t.regs.nextUpdate.toNat =
          (s.regs.nextUpdate.toNat + s.regs.timeStep.toNat) % 2 ^ clockBits s.params.clkW) ∧
        evs = (if s.regs.running = true then
          [.write s.regs.pin1 (levelOf (s.regs.phase1 &&& t.regs.position)),
           .write s.regs.pin2 (levelOf (s.regs.phase2 &&& t.regs.position)),
           .write s.regs.pin3 (levelOf (s.regs.phase3 &&& t.regs.position))] else []) ∧
        t.obs = s.obs ++ [⟨0x04#8, evs⟩] ∧ t.sink = acceptEvents s.params s.sink evs ∧
        t.params = s.params ∧ t.now = s.now ∧ t.host = s.host)

/-- 42_stepping.md R142 and R143: UNCONFIGURED on an unconfigured block; result 0 and nothing else where the gate is closed; where
it is open, a STEP_BWD moves ring index `i` to `i − 1`, wrapping below 0, moves the deadline on under speed control only, and drives the three pins at the
new position if running. -/
def Obligations.StepBwdGatesMovesAndDrives : Prop :=
  ∀ s : State,
    (s.regs.configured = false → exec .stepBwd s = .next { s with obs := s.obs ++ [⟨0x03#8, []⟩] }) ∧
    (s.regs.configured = true → s.regs.speedControl = true → due s.params.clkW s.now s.regs.nextUpdate = false →
      exec .stepBwd s = .next { s with obs := s.obs ++ [⟨0x00#8, []⟩] }) ∧
    (∀ i : Nat, s.regs.configured = true → (s.regs.stepCount = 3#3 ∨ s.regs.stepCount = 6#3) → RingIndex s.regs i →
      (s.regs.speedControl = true → due s.params.clkW s.now s.regs.nextUpdate = true) →
      ∃ t evs, exec .stepBwd s = .next t ∧
        t.regs.position = BitVec.ofNat 8 (1 <<< ((i + s.regs.stepCount.toNat - 1) % s.regs.stepCount.toNat)) ∧
        t.regs = { s.regs with position := t.regs.position, nextUpdate := t.regs.nextUpdate } ∧
        (s.regs.speedControl = false → t.regs.nextUpdate = s.regs.nextUpdate) ∧
        (s.regs.speedControl = true → t.regs.nextUpdate.toNat =
          (s.regs.nextUpdate.toNat + s.regs.timeStep.toNat) % 2 ^ clockBits s.params.clkW) ∧
        evs = (if s.regs.running = true then
          [.write s.regs.pin1 (levelOf (s.regs.phase1 &&& t.regs.position)),
           .write s.regs.pin2 (levelOf (s.regs.phase2 &&& t.regs.position)),
           .write s.regs.pin3 (levelOf (s.regs.phase3 &&& t.regs.position))] else []) ∧
        t.obs = s.obs ++ [⟨0x04#8, evs⟩] ∧ t.sink = acceptEvents s.params s.sink evs ∧
        t.params = s.params ∧ t.now = s.now ∧ t.host = s.host)

/-- 42_stepping.md R147: while released a due step of either direction still moves the position and, under speed control, the
deadline, answers 0x04 and emits no pin event. -/
def Obligations.ReleasedStepMovesUnseen : Prop :=
  ∀ (s : State) (i : Instr), isStep i = true → s.regs.configured = true → s.regs.running = false →
    (s.regs.speedControl = true → due s.params.clkW s.now s.regs.nextUpdate = true) →
    ∃ t, exec i s = .next t ∧ t.sink = s.sink ∧ t.obs = s.obs ++ [⟨0x04#8, []⟩] ∧
      t.regs = { s.regs with
        position := if i = .stepFwd then ringFwd s.regs.stepCount s.regs.position
          else ringBwd s.regs.stepCount s.regs.position
        nextUpdate := if s.regs.speedControl = true
          then addW s.params.clkW s.regs.nextUpdate s.regs.timeStep else s.regs.nextUpdate } ∧
      t.params = s.params ∧ t.now = s.now ∧ t.host = s.host

/-- 42_stepping.md R144: from ring index `i`, `k` forward steps reach index `i + k` and `k` backward steps index `i − k`, both
modulo `step_count`; so `step_count` of them return, and the positions before that are distinct. -/
def Obligations.RingCycle : Prop :=
  ∀ (sc : BitVec 3) (i k : Nat), sc = 3#3 ∨ sc = 6#3 → i < sc.toNat →
    (ringFwd sc)^[k] (BitVec.ofNat 8 (1 <<< i)) = BitVec.ofNat 8 (1 <<< ((i + k) % sc.toNat)) ∧
    (ringBwd sc)^[k] (BitVec.ofNat 8 (1 <<< i)) = BitVec.ofNat 8 (1 <<< ((i + k * (sc.toNat - 1)) % sc.toNat)) ∧
    (ringFwd sc)^[sc.toNat] (BitVec.ofNat 8 (1 <<< i)) = BitVec.ofNat 8 (1 <<< i) ∧
    (ringBwd sc)^[sc.toNat] (BitVec.ofNat 8 (1 <<< i)) = BitVec.ofNat 8 (1 <<< i) ∧
    (0 < k → k < sc.toNat → ∀ j, j < k →
      (ringFwd sc)^[k] (BitVec.ofNat 8 (1 <<< i)) ≠ (ringFwd sc)^[j] (BitVec.ofNat 8 (1 <<< i)) ∧
      (ringBwd sc)^[k] (BitVec.ofNat 8 (1 <<< i)) ≠ (ringBwd sc)^[j] (BitVec.ofNat 8 (1 <<< i)))

/-- 42_stepping.md R145: with speed control off, STEP_FWD then STEP_BWD restores the position, and if running the pins are
driven to the levels of the restored position. -/
def Obligations.StepThereAndBack : Prop :=
  ∀ (s : State) (i : Nat), s.regs.configured = true → s.regs.speedControl = false →
    (s.regs.stepCount = 3#3 ∨ s.regs.stepCount = 6#3) → RingIndex s.regs i →
    ringBwd s.regs.stepCount (ringFwd s.regs.stepCount s.regs.position) = s.regs.position ∧
    ringFwd s.regs.stepCount (ringBwd s.regs.stepCount s.regs.position) = s.regs.position ∧
    ∃ t u, exec .stepFwd s = .next t ∧ exec .stepBwd t = .next u ∧ u.regs = s.regs ∧
      u.obs = t.obs ++ [⟨0x04#8, if s.regs.running = true then
        [.write s.regs.pin1 (levelOf (s.regs.phase1 &&& s.regs.position)),
         .write s.regs.pin2 (levelOf (s.regs.phase2 &&& s.regs.position)),
         .write s.regs.pin3 (levelOf (s.regs.phase3 &&& s.regs.position))] else []⟩]

/-- The table of 42_stepping.md R148, for the registers that hold SINGLE and OVERLAP with the default masks. -/
def Obligations.RingAndLevelTable : Prop :=
  let single : Regs := { Regs.reset with stepCount := 3#3, phase1 := 4#8, phase2 := 2#8, phase3 := 1#8 }
  let overlap : Regs := { Regs.reset with stepCount := 6#3, phase1 := 0x38#8, phase2 := 0x0E#8, phase3 := 0x23#8 }
  let row (r : Regs) (p i f b : Nat) (l : Level × Level × Level) : Prop :=
    RingIndex { r with position := BitVec.ofNat 8 p } i ∧
      ringFwd r.stepCount (BitVec.ofNat 8 p) = BitVec.ofNat 8 f ∧
      ringBwd r.stepCount (BitVec.ofNat 8 p) = BitVec.ofNat 8 b ∧
      phaseLevels { r with position := BitVec.ofNat 8 p } = l
  row single 1 0 2 4 (.low, .low, .high) ∧ row single 2 1 4 1 (.low, .high, .low) ∧
  row single 4 2 1 2 (.high, .low, .low) ∧
  row overlap 1 0 2 32 (.low, .low, .high) ∧ row overlap 2 1 4 1 (.low, .high, .high) ∧
  row overlap 4 2 8 2 (.low, .high, .low) ∧ row overlap 8 3 16 4 (.high, .high, .low) ∧
  row overlap 16 4 32 8 (.high, .low, .low) ∧ row overlap 32 5 1 16 (.high, .low, .high)

/-! ### Phase output -/

/-- 43_phase_output.md R163, with the procedure of R160: UNCONFIGURED on an unconfigured block; else the three writes in order
if running, no event if released; no register changes. -/
def Obligations.ApplyDrivesThePhase : Prop :=
  ∀ s : State,
    (s.regs.configured = false → exec .apply s = .next { s with obs := s.obs ++ [⟨0x03#8, []⟩] }) ∧
    (s.regs.configured = true → s.regs.running = false → exec .apply s = .next { s with obs := s.obs ++ [⟨0x00#8, []⟩] }) ∧
    (s.regs.configured = true → s.regs.running = true → ∃ evs,
      evs = [.write s.regs.pin1 (if s.regs.phase1 &&& s.regs.position = 0#8 then .low else .high),
        .write s.regs.pin2 (if s.regs.phase2 &&& s.regs.position = 0#8 then .low else .high),
        .write s.regs.pin3 (if s.regs.phase3 &&& s.regs.position = 0#8 then .low else .high)] ∧
      exec .apply s =
        .next { s with sink := acceptEvents s.params s.sink evs, obs := s.obs ++ [⟨0x00#8, evs⟩] })

/-- 43_phase_output.md R165 with R164: UNCONFIGURED on an unconfigured block; else `running <- 0` and three LOW writes,
released or not. Where the PinSink accepts the pins, each then reads LOW. -/
def Obligations.ReleaseDrivesAllLow : Prop :=
  ∀ s : State,
    (s.regs.configured = false → exec .release s = .next { s with obs := s.obs ++ [⟨0x03#8, []⟩] }) ∧
    (s.regs.configured = true → ∃ t, exec .release s = .next t ∧ t.regs = { s.regs with running := false } ∧
      t.obs = s.obs ++ [⟨0x00#8, [.write s.regs.pin1 .low, .write s.regs.pin2 .low, .write s.regs.pin3 .low]⟩] ∧
      t.sink = acceptEvents s.params s.sink
        [.write s.regs.pin1 .low, .write s.regs.pin2 .low, .write s.regs.pin3 .low] ∧
      (∀ p, p = s.regs.pin1 ∨ p = s.regs.pin2 ∨ p = s.regs.pin3 → pinValid s.params p = true →
        levelAt t.sink p = some .low) ∧
      t.params = s.params ∧ t.now = s.now ∧ t.host = s.host)

/-- 43_phase_output.md R166: UNCONFIGURED on an unconfigured block; else `running <- 1`, no pin event, nothing else. -/
def Obligations.ResumeWritesNoPin : Prop :=
  ∀ s : State,
    (s.regs.configured = false → exec .resume s = .next { s with obs := s.obs ++ [⟨0x03#8, []⟩] }) ∧
    (s.regs.configured = true →
      exec .resume s = .next { s with regs := { s.regs with running := true }, obs := s.obs ++ [⟨0x00#8, []⟩] })

/-- 43_phase_output.md R161 on this hardware's OVERLAP masks: a configured block that meets the invariant has at least one
phase HIGH at its position, and exactly one if it holds SINGLE. -/
def Obligations.SomePhaseIsAlwaysDriven : Prop :=
  ∀ s : State, Inv s → s.regs.configured = true → s.params.maskOverlap = maskOverlapDefault →
    phaseLevels s.regs ≠ (.low, .low, .low) ∧
    (s.regs.stepCount = 3#3 → phaseLevels s.regs = (.high, .low, .low) ∨ phaseLevels s.regs = (.low, .high, .low) ∨
      phaseLevels s.regs = (.low, .low, .high))

/-- 43_phase_output.md R162: with equal pin identifiers APPLY still emits three writes, and a pin shows the level of the
highest-numbered phase that names it. -/
def Obligations.SharedPinShowsTheLastPhase : Prop :=
  ∀ s : State, s.regs.configured = true → s.regs.running = true → pinValid s.params s.regs.pin1 = true →
    pinValid s.params s.regs.pin2 = true → pinValid s.params s.regs.pin3 = true →
    ∃ t o, exec .apply s = .next t ∧ t.obs = s.obs ++ [o] ∧
      o.pinEv = [.write s.regs.pin1 (levelOf (s.regs.phase1 &&& s.regs.position)),
        .write s.regs.pin2 (levelOf (s.regs.phase2 &&& s.regs.position)),
        .write s.regs.pin3 (levelOf (s.regs.phase3 &&& s.regs.position))] ∧
      levelAt t.sink s.regs.pin3 = some (levelOf (s.regs.phase3 &&& s.regs.position)) ∧
      (s.regs.pin2 ≠ s.regs.pin3 →
        levelAt t.sink s.regs.pin2 = some (levelOf (s.regs.phase2 &&& s.regs.position))) ∧
      (s.regs.pin1 ≠ s.regs.pin2 → s.regs.pin1 ≠ s.regs.pin3 →
        levelAt t.sink s.regs.pin1 = some (levelOf (s.regs.phase1 &&& s.regs.position)))

/-- Pins after a release (43_phase_output.md R168): while `running = 0`, and through any row of inputs with no NEW, RELEASE,
RESUME or power-on reset among them, the PinSink does not change and the block stays released. -/
def Obligations.ReleasedPinsHold : Prop :=
  ∀ (n : Nat) (s t : State), s.regs.running = false →
    (∀ x ∈ s.host, ∃ cmd now, x = .command cmd now ∧
      ∀ i, decode cmd = .ok i → isNew i = false ∧ i ≠ .release ∧ i ≠ .resume) →
    runSteps n s = .next t → t.sink = s.sink ∧ t.regs.running = false

/-- The end of a release (43_phase_output.md R168, 70_reset_and_hazards.md R240): RESUME leaves the pins as they are, and the
next due STEP_FWD drives them to the levels of the position it reaches. -/
def Obligations.ResumeThenStepDrives : Prop :=
  ∀ (s : State) (i : Nat), s.regs.configured = true → (s.regs.stepCount = 3#3 ∨ s.regs.stepCount = 6#3) →
    RingIndex s.regs i → (s.regs.speedControl = true → due s.params.clkW s.now s.regs.nextUpdate = true) →
    s.regs.pin1 ≠ s.regs.pin2 → s.regs.pin1 ≠ s.regs.pin3 → s.regs.pin2 ≠ s.regs.pin3 →
    pinValid s.params s.regs.pin1 = true → pinValid s.params s.regs.pin2 = true →
    pinValid s.params s.regs.pin3 = true →
    ∃ t u, exec .resume s = .next t ∧ t.sink = s.sink ∧ exec .stepFwd t = .next u ∧
      u.regs.position = BitVec.ofNat 8 (1 <<< ((i + 1) % s.regs.stepCount.toNat)) ∧
      levelAt u.sink s.regs.pin1 = some (levelOf (s.regs.phase1 &&& u.regs.position)) ∧
      levelAt u.sink s.regs.pin2 = some (levelOf (s.regs.phase2 &&& u.regs.position)) ∧
      levelAt u.sink s.regs.pin3 = some (levelOf (s.regs.phase3 &&& u.regs.position))

/-! ### The PinSink -/

/-- 20_memory.md R56 over a row of events: a pin the PinSink accepts reads the last level written to it, and is an output
if it was one or was configured. -/
def Obligations.LastWriteWins : Prop :=
  ∀ (q : Params) (k : PinSink) (evs : List PinEvent) (p : PinId), pinValid q p = true →
    levelAt (acceptEvents q k evs) p = (lastWrite p evs).or (levelAt k p) ∧
    (isOutputAt (acceptEvents q k evs) p = true ↔ isOutputAt k p = true ∨ .config p ∈ evs)

/-- An event to a pin outside `PIN_VALID` sets `sink_fault` and changes nothing else, and no event clears it
(20_memory.md R57). -/
def Obligations.InvalidPinOnlySetsTheFault : Prop :=
  ∀ (q : Params) (k : PinSink) (evs : List PinEvent) (p : PinId), pinValid q p = false →
    levelAt (acceptEvents q k evs) p = levelAt k p ∧ isOutputAt (acceptEvents q k evs) p = isOutputAt k p ∧
    (k.sinkFault = true → (acceptEvents q k evs).sinkFault = true) ∧
    (∀ l, acceptEvents q k [.write p l] = { k with sinkFault := true }) ∧
    acceptEvents q k [.config p] = { k with sinkFault := true }

/-- The block's registers, responses and pin events do not depend on `PIN_VALID` or on the PinSink's state, over any run
(20_memory.md R57, 90_conflicts.md C5). -/
def Obligations.BlockIgnoresThePinSink : Prop :=
  ∀ (n : Nat) (s t : State) (v : List PinId) (k : PinSink), runSteps n s = .next t →
    ∃ u, runSteps n { s with params := { s.params with validPins := v }, sink := k } = .next u ∧
      u.regs = t.regs ∧ u.obs = t.obs ∧ u.host = t.host ∧ u.now = t.now

/-- Over any run with no power-on reset among its inputs, there is one response per command, in order, and the PinSink is
what the emitted events make of it, in order (20_memory.md R53, 00_scope.md R10). -/
def Obligations.PinSinkFollowsTheEvents : Prop :=
  ∀ (n : Nat) (s t : State), .powerOnReset ∉ s.host → runSteps n s = .next t →
    ∃ os, t.obs = s.obs ++ os ∧ os.length = min n s.host.length ∧
      t.sink = acceptEvents s.params s.sink (os.flatMap Observation.pinEv)

/-! ### Frames -/

/-- What a STEP of either direction, APPLY and RELEASE leave unchanged (10_state.md R35, 20_memory.md R56): every register but
`position` and `next_update` (STEP only) and `running` (RELEASE only); which pins are outputs; the level of every pin
other than the block's three; and all levels where the command emits no event. -/
def Obligations.DrivingCommandsFrame : Prop :=
  ∀ (s t : State) (i : Instr), isStep i = true ∨ i = .apply ∨ i = .release → exec i s = .next t →
    t.params = s.params ∧ t.now = s.now ∧ t.host = s.host ∧
    t.regs = { s.regs with position := t.regs.position, nextUpdate := t.regs.nextUpdate, running := t.regs.running } ∧
    (isStep i = false → t.regs.position = s.regs.position ∧ t.regs.nextUpdate = s.regs.nextUpdate) ∧
    (i ≠ .release → t.regs.running = s.regs.running) ∧
    (∀ p, isOutputAt t.sink p = isOutputAt s.sink p) ∧
    (∀ p, p ≠ s.regs.pin1 → p ≠ s.regs.pin2 → p ≠ s.regs.pin3 → levelAt t.sink p = levelAt s.sink p) ∧
    (i ≠ .release → s.regs.running = false → t.sink = s.sink) ∧
    (∃ o, t.obs = s.obs ++ [o] ∧ (o.pinEv = [] → t.sink = s.sink))

/-- What SET_SPEED, SET_SPEED_CONTROL and RESUME leave unchanged (10_state.md R35): the whole PinSink, and every register but
`time_step` and `next_update` (SET_SPEED only), `speed_control` (SET_SPEED_CONTROL only) and `running` (RESUME only). -/
def Obligations.SilentCommandsFrame : Prop :=
  ∀ (s t : State) (i : Instr), isSetSpeed i = true ∨ (∃ en, i = .setSpeedControl en) ∨ i = .resume →
    exec i s = .next t →
    t.params = s.params ∧ t.now = s.now ∧ t.host = s.host ∧ t.sink = s.sink ∧
    t.regs = { s.regs with
      timeStep := t.regs.timeStep, nextUpdate := t.regs.nextUpdate, speedControl := t.regs.speedControl,
      running := t.regs.running } ∧
    (isSetSpeed i = false → t.regs.timeStep = s.regs.timeStep ∧ t.regs.nextUpdate = s.regs.nextUpdate) ∧
    (i ≠ .setSpeedControl t.regs.speedControl → t.regs.speedControl = s.regs.speedControl) ∧
    (i ≠ .resume → t.regs.running = s.regs.running) ∧
    (∃ o, t.obs = s.obs ++ [o] ∧ o.pinEv = [])

/-- A command that does not need the time ignores it: all but NEW, SET_SPEED and STEP under speed control
(20_memory.md R61). -/
def Obligations.UngatedCommandsIgnoreTheClock : Prop :=
  ∀ (s t : State) (i : Instr) (n : ClockWord), isNew i = false → isSetSpeed i = false →
    (isStep i = true → s.regs.speedControl = false) → exec i s = .next t →
    exec i { s with now := n } = .next { t with now := n }

/-- The repeat clause of 20_memory.md R64: any command but a STEP, given twice at the same clock sample, leaves the registers
and every reading of the PinSink as once. -/
def Obligations.RepeatedCommandsAreIdempotent : Prop :=
  ∀ (s t u : State) (i : Instr), isStep i = false → exec i s = .next t → exec i t = .next u →
    u.regs = t.regs ∧ u.sink.sinkFault = t.sink.sinkFault ∧
    (∀ p, levelAt u.sink p = levelAt t.sink p ∧ isOutputAt u.sink p = isOutputAt t.sink p)

/-! ### Invariants -/

/-- Every step keeps the invariant of Safety.lean: the clauses of 10_state.md R38, the clock widths, the PinSink's canonical
form and the pin clauses of 20_memory.md R58. -/
def Obligations.StepKeepsTheInvariant : Prop := ∀ s t : State, Inv s → step s = .next t → Inv t

/-- The invariant holds after reset, for whatever `PIN_VALID` and inputs the platform has. -/
def Obligations.ResetMeetsTheInvariant : Prop :=
  ∀ (v : List PinId) (h : List HostInput),
    Inv { State.reset with params := { hardwareParams with validPins := v }, host := h } ∧ Inv State.reset

/-- 10_state.md R38: in every state that a run reaches from one that meets the invariant, a configured block has
`step_count` 3 or 6, a one-hot position inside the ring, masks confined to the low `step_count` bits and a time step of
at most 20,000,000. -/
def Obligations.ReachableConfiguredStates : Prop :=
  ∀ (n : Nat) (s t : State), Inv s → runSteps n s = .next t → t.regs.configured = true →
    (t.regs.stepCount = 3#3 ∨ t.regs.stepCount = 6#3) ∧ (∃ i, RingIndex t.regs i) ∧
    t.regs.phase1 >>> t.regs.stepCount.toNat = 0#8 ∧ t.regs.phase2 >>> t.regs.stepCount.toNat = 0#8 ∧
    t.regs.phase3 >>> t.regs.stepCount.toNat = 0#8 ∧ t.regs.timeStep.toNat ≤ 20000000
end

