-- ==== Sys2Proof/Laws/Clock.lean ====
section
/-! SUPPORT. Clock arithmetic as numbers (00_scope.md R13) and the bounds of the time step. -/

namespace Sys2Proof.Machine

theorem clockBits_le (w : ClkWidth) : clockBits w ≤ 64 := by cases w <;> decide

theorem two_pow_clockBits_le (w : ClkWidth) : 2 ^ clockBits w ≤ 2 ^ 64 := by cases w <;> decide

/-- A wrapped integer, read back as a number. -/
theorem wrap_toNat (w : ClkWidth) (n : Int) : ((wrap w n).toNat : Int) = n % 2 ^ clockBits w := by
  unfold wrap
  cases w <;> simp only [clockBits, BitVec.toNat_ofInt] <;> omega

theorem wrap_lt (w : ClkWidth) (n : Int) : (wrap w n).toNat < 2 ^ clockBits w := by
  have h := wrap_toNat w n
  cases w <;> simp only [clockBits] at * <;> omega

/-- A number that fits the clock is not changed by wrapping. -/
theorem wrap_toNat_of_lt (w : ClkWidth) (n : Nat) (h : n < 2 ^ clockBits w) : (wrap w (n : Int)).toNat = n := by
  have h1 := wrap_toNat w (n : Int)
  cases w <;> simp only [clockBits] at * <;> omega

/-- Two clock values are equal when their numbers are. -/
theorem wrap_eq_wrap (w : ClkWidth) (m n : Int) (h : m % 2 ^ clockBits w = n % 2 ^ clockBits w) : wrap w m = wrap w n := by
  unfold wrap; rw [h]

theorem addW_toNat (w : ClkWidth) (a b : ClockWord) :
    ((addW w a b).toNat : Int) = (a.toNat + b.toNat) % 2 ^ clockBits w := wrap_toNat w _

theorem subW_toNat (w : ClkWidth) (a b : ClockWord) :
    ((subW w a b).toNat : Int) = ((a.toNat : Int) - b.toNat) % 2 ^ clockBits w := wrap_toNat w _

/-- The sum of two clock values as a number. -/
theorem addW_toNat_nat (w : ClkWidth) (a b : ClockWord) :
    (addW w a b).toNat = (a.toNat + b.toNat) % 2 ^ clockBits w := by
  have h := addW_toNat w a b
  have h2 : ((2 : Int) ^ clockBits w) = ((2 ^ clockBits w : Nat) : Int) := by push_cast; rfl
  rw [h2] at h
  exact_mod_cast h

/-- A time step fits both clock widths, so storing it loses nothing (41_speed_gating.md R121). -/
theorem wrap_timeStepOf_toNat (w : ClkWidth) (rpm sc : Nat) :
    (wrap w (timeStepOf rpm sc : Nat)).toNat = 60000000 / rpm / sc := by
  apply wrap_toNat_of_lt
  have h : 60000000 / rpm / sc ≤ 60000000 := le_trans (Nat.div_le_self _ _) (Nat.div_le_self _ _)
  show 60000000 / rpm / sc < _
  cases w <;> simp only [clockBits] <;> omega

/-- Sampling a `W`-bit clock value again changes nothing. -/
theorem wrap_wrap (w : ClkWidth) (n : Int) : wrap w ((wrap w n).toNat : Int) = wrap w n := by
  apply wrap_eq_wrap
  rw [wrap_toNat, Int.emod_emod_of_dvd _ (dvd_refl _)]

/-- The comparator as a comparison of numbers (41_speed_gating.md R124). -/
theorem due_iff_mod (w : ClkWidth) (now d : ClockWord) :
    due w now d = true ↔ ((now.toNat : Int) - d.toNat) % 2 ^ clockBits w < 2 ^ (clockBits w - 1) := by
  have h := subW_toNat w now d
  unfold due
  rw [decide_eq_true_eq, ← h]
  cases w <;> simp only [clockBits] <;> omega

end Sys2Proof.Machine
end

