-- ==== Sys2Proof/Laws/State.lean ====
section
/-! SUPPORT. What each update of the state leaves in each field, one lemma per field, so that no proof unfolds an update. -/

namespace Sys2Proof.Machine

@[simp] theorem setPosition_params (p : PosWord) (s : State) : (setPosition p s).params = s.params := rfl
@[simp] theorem setPosition_sink (p : PosWord) (s : State) : (setPosition p s).sink = s.sink := rfl
@[simp] theorem setPosition_now (p : PosWord) (s : State) : (setPosition p s).now = s.now := rfl
@[simp] theorem setPosition_host (p : PosWord) (s : State) : (setPosition p s).host = s.host := rfl
@[simp] theorem setPosition_obs (p : PosWord) (s : State) : (setPosition p s).obs = s.obs := rfl
@[simp] theorem setPosition_configured (p : PosWord) (s : State) :
    (setPosition p s).regs.configured = s.regs.configured := rfl
@[simp] theorem setPosition_stepCount (p : PosWord) (s : State) :
    (setPosition p s).regs.stepCount = s.regs.stepCount := rfl
@[simp] theorem setPosition_phase1 (p : PosWord) (s : State) :
    (setPosition p s).regs.phase1 = s.regs.phase1 := rfl
@[simp] theorem setPosition_phase2 (p : PosWord) (s : State) :
    (setPosition p s).regs.phase2 = s.regs.phase2 := rfl
@[simp] theorem setPosition_phase3 (p : PosWord) (s : State) :
    (setPosition p s).regs.phase3 = s.regs.phase3 := rfl
@[simp] theorem setPosition_position (p : PosWord) (s : State) :
    (setPosition p s).regs.position = p := rfl
@[simp] theorem setPosition_running (p : PosWord) (s : State) :
    (setPosition p s).regs.running = s.regs.running := rfl
@[simp] theorem setPosition_timeStep (p : PosWord) (s : State) :
    (setPosition p s).regs.timeStep = s.regs.timeStep := rfl
@[simp] theorem setPosition_nextUpdate (p : PosWord) (s : State) :
    (setPosition p s).regs.nextUpdate = s.regs.nextUpdate := rfl
@[simp] theorem setPosition_speedControl (p : PosWord) (s : State) :
    (setPosition p s).regs.speedControl = s.regs.speedControl := rfl
@[simp] theorem setPosition_pin1 (p : PosWord) (s : State) :
    (setPosition p s).regs.pin1 = s.regs.pin1 := rfl
@[simp] theorem setPosition_pin2 (p : PosWord) (s : State) :
    (setPosition p s).regs.pin2 = s.regs.pin2 := rfl
@[simp] theorem setPosition_pin3 (p : PosWord) (s : State) :
    (setPosition p s).regs.pin3 = s.regs.pin3 := rfl

@[simp] theorem setRunning_params (b : Bool) (s : State) : (setRunning b s).params = s.params := rfl
@[simp] theorem setRunning_sink (b : Bool) (s : State) : (setRunning b s).sink = s.sink := rfl
@[simp] theorem setRunning_now (b : Bool) (s : State) : (setRunning b s).now = s.now := rfl
@[simp] theorem setRunning_host (b : Bool) (s : State) : (setRunning b s).host = s.host := rfl
@[simp] theorem setRunning_obs (b : Bool) (s : State) : (setRunning b s).obs = s.obs := rfl
@[simp] theorem setRunning_configured (b : Bool) (s : State) :
    (setRunning b s).regs.configured = s.regs.configured := rfl
@[simp] theorem setRunning_stepCount (b : Bool) (s : State) :
    (setRunning b s).regs.stepCount = s.regs.stepCount := rfl
@[simp] theorem setRunning_phase1 (b : Bool) (s : State) :
    (setRunning b s).regs.phase1 = s.regs.phase1 := rfl
@[simp] theorem setRunning_phase2 (b : Bool) (s : State) :
    (setRunning b s).regs.phase2 = s.regs.phase2 := rfl
@[simp] theorem setRunning_phase3 (b : Bool) (s : State) :
    (setRunning b s).regs.phase3 = s.regs.phase3 := rfl
@[simp] theorem setRunning_position (b : Bool) (s : State) :
    (setRunning b s).regs.position = s.regs.position := rfl
@[simp] theorem setRunning_running (b : Bool) (s : State) :
    (setRunning b s).regs.running = b := rfl
@[simp] theorem setRunning_timeStep (b : Bool) (s : State) :
    (setRunning b s).regs.timeStep = s.regs.timeStep := rfl
@[simp] theorem setRunning_nextUpdate (b : Bool) (s : State) :
    (setRunning b s).regs.nextUpdate = s.regs.nextUpdate := rfl
@[simp] theorem setRunning_speedControl (b : Bool) (s : State) :
    (setRunning b s).regs.speedControl = s.regs.speedControl := rfl
@[simp] theorem setRunning_pin1 (b : Bool) (s : State) :
    (setRunning b s).regs.pin1 = s.regs.pin1 := rfl
@[simp] theorem setRunning_pin2 (b : Bool) (s : State) :
    (setRunning b s).regs.pin2 = s.regs.pin2 := rfl
@[simp] theorem setRunning_pin3 (b : Bool) (s : State) :
    (setRunning b s).regs.pin3 = s.regs.pin3 := rfl

@[simp] theorem setSpeedControl_params (b : Bool) (s : State) : (setSpeedControl b s).params = s.params := rfl
@[simp] theorem setSpeedControl_sink (b : Bool) (s : State) : (setSpeedControl b s).sink = s.sink := rfl
@[simp] theorem setSpeedControl_now (b : Bool) (s : State) : (setSpeedControl b s).now = s.now := rfl
@[simp] theorem setSpeedControl_host (b : Bool) (s : State) : (setSpeedControl b s).host = s.host := rfl
@[simp] theorem setSpeedControl_obs (b : Bool) (s : State) : (setSpeedControl b s).obs = s.obs := rfl
@[simp] theorem setSpeedControl_configured (b : Bool) (s : State) :
    (setSpeedControl b s).regs.configured = s.regs.configured := rfl
@[simp] theorem setSpeedControl_stepCount (b : Bool) (s : State) :
    (setSpeedControl b s).regs.stepCount = s.regs.stepCount := rfl
@[simp] theorem setSpeedControl_phase1 (b : Bool) (s : State) :
    (setSpeedControl b s).regs.phase1 = s.regs.phase1 := rfl
@[simp] theorem setSpeedControl_phase2 (b : Bool) (s : State) :
    (setSpeedControl b s).regs.phase2 = s.regs.phase2 := rfl
@[simp] theorem setSpeedControl_phase3 (b : Bool) (s : State) :
    (setSpeedControl b s).regs.phase3 = s.regs.phase3 := rfl
@[simp] theorem setSpeedControl_position (b : Bool) (s : State) :
    (setSpeedControl b s).regs.position = s.regs.position := rfl
@[simp] theorem setSpeedControl_running (b : Bool) (s : State) :
    (setSpeedControl b s).regs.running = s.regs.running := rfl
@[simp] theorem setSpeedControl_timeStep (b : Bool) (s : State) :
    (setSpeedControl b s).regs.timeStep = s.regs.timeStep := rfl
@[simp] theorem setSpeedControl_nextUpdate (b : Bool) (s : State) :
    (setSpeedControl b s).regs.nextUpdate = s.regs.nextUpdate := rfl
@[simp] theorem setSpeedControl_speedControl (b : Bool) (s : State) :
    (setSpeedControl b s).regs.speedControl = b := rfl
@[simp] theorem setSpeedControl_pin1 (b : Bool) (s : State) :
    (setSpeedControl b s).regs.pin1 = s.regs.pin1 := rfl
@[simp] theorem setSpeedControl_pin2 (b : Bool) (s : State) :
    (setSpeedControl b s).regs.pin2 = s.regs.pin2 := rfl
@[simp] theorem setSpeedControl_pin3 (b : Bool) (s : State) :
    (setSpeedControl b s).regs.pin3 = s.regs.pin3 := rfl

@[simp] theorem setNextUpdate_params (d : ClockWord) (s : State) : (setNextUpdate d s).params = s.params := rfl
@[simp] theorem setNextUpdate_sink (d : ClockWord) (s : State) : (setNextUpdate d s).sink = s.sink := rfl
@[simp] theorem setNextUpdate_now (d : ClockWord) (s : State) : (setNextUpdate d s).now = s.now := rfl
@[simp] theorem setNextUpdate_host (d : ClockWord) (s : State) : (setNextUpdate d s).host = s.host := rfl
@[simp] theorem setNextUpdate_obs (d : ClockWord) (s : State) : (setNextUpdate d s).obs = s.obs := rfl
@[simp] theorem setNextUpdate_configured (d : ClockWord) (s : State) :
    (setNextUpdate d s).regs.configured = s.regs.configured := rfl
@[simp] theorem setNextUpdate_stepCount (d : ClockWord) (s : State) :
    (setNextUpdate d s).regs.stepCount = s.regs.stepCount := rfl
@[simp] theorem setNextUpdate_phase1 (d : ClockWord) (s : State) :
    (setNextUpdate d s).regs.phase1 = s.regs.phase1 := rfl
@[simp] theorem setNextUpdate_phase2 (d : ClockWord) (s : State) :
    (setNextUpdate d s).regs.phase2 = s.regs.phase2 := rfl
@[simp] theorem setNextUpdate_phase3 (d : ClockWord) (s : State) :
    (setNextUpdate d s).regs.phase3 = s.regs.phase3 := rfl
@[simp] theorem setNextUpdate_position (d : ClockWord) (s : State) :
    (setNextUpdate d s).regs.position = s.regs.position := rfl
@[simp] theorem setNextUpdate_running (d : ClockWord) (s : State) :
    (setNextUpdate d s).regs.running = s.regs.running := rfl
@[simp] theorem setNextUpdate_timeStep (d : ClockWord) (s : State) :
    (setNextUpdate d s).regs.timeStep = s.regs.timeStep := rfl
@[simp] theorem setNextUpdate_nextUpdate (d : ClockWord) (s : State) :
    (setNextUpdate d s).regs.nextUpdate = d := rfl
@[simp] theorem setNextUpdate_speedControl (d : ClockWord) (s : State) :
    (setNextUpdate d s).regs.speedControl = s.regs.speedControl := rfl
@[simp] theorem setNextUpdate_pin1 (d : ClockWord) (s : State) :
    (setNextUpdate d s).regs.pin1 = s.regs.pin1 := rfl
@[simp] theorem setNextUpdate_pin2 (d : ClockWord) (s : State) :
    (setNextUpdate d s).regs.pin2 = s.regs.pin2 := rfl
@[simp] theorem setNextUpdate_pin3 (d : ClockWord) (s : State) :
    (setNextUpdate d s).regs.pin3 = s.regs.pin3 := rfl

@[simp] theorem setTimeStep_params (v : ClockWord) (s : State) : (setTimeStep v s).params = s.params := rfl
@[simp] theorem setTimeStep_sink (v : ClockWord) (s : State) : (setTimeStep v s).sink = s.sink := rfl
@[simp] theorem setTimeStep_now (v : ClockWord) (s : State) : (setTimeStep v s).now = s.now := rfl
@[simp] theorem setTimeStep_host (v : ClockWord) (s : State) : (setTimeStep v s).host = s.host := rfl
@[simp] theorem setTimeStep_obs (v : ClockWord) (s : State) : (setTimeStep v s).obs = s.obs := rfl
@[simp] theorem setTimeStep_configured (v : ClockWord) (s : State) :
    (setTimeStep v s).regs.configured = s.regs.configured := rfl
@[simp] theorem setTimeStep_stepCount (v : ClockWord) (s : State) :
    (setTimeStep v s).regs.stepCount = s.regs.stepCount := rfl
@[simp] theorem setTimeStep_phase1 (v : ClockWord) (s : State) :
    (setTimeStep v s).regs.phase1 = s.regs.phase1 := rfl
@[simp] theorem setTimeStep_phase2 (v : ClockWord) (s : State) :
    (setTimeStep v s).regs.phase2 = s.regs.phase2 := rfl
@[simp] theorem setTimeStep_phase3 (v : ClockWord) (s : State) :
    (setTimeStep v s).regs.phase3 = s.regs.phase3 := rfl
@[simp] theorem setTimeStep_position (v : ClockWord) (s : State) :
    (setTimeStep v s).regs.position = s.regs.position := rfl
@[simp] theorem setTimeStep_running (v : ClockWord) (s : State) :
    (setTimeStep v s).regs.running = s.regs.running := rfl
@[simp] theorem setTimeStep_timeStep (v : ClockWord) (s : State) :
    (setTimeStep v s).regs.timeStep = v := rfl
@[simp] theorem setTimeStep_nextUpdate (v : ClockWord) (s : State) :
    (setTimeStep v s).regs.nextUpdate = s.regs.nextUpdate := rfl
@[simp] theorem setTimeStep_speedControl (v : ClockWord) (s : State) :
    (setTimeStep v s).regs.speedControl = s.regs.speedControl := rfl
@[simp] theorem setTimeStep_pin1 (v : ClockWord) (s : State) :
    (setTimeStep v s).regs.pin1 = s.regs.pin1 := rfl
@[simp] theorem setTimeStep_pin2 (v : ClockWord) (s : State) :
    (setTimeStep v s).regs.pin2 = s.regs.pin2 := rfl
@[simp] theorem setTimeStep_pin3 (v : ClockWord) (s : State) :
    (setTimeStep v s).regs.pin3 = s.regs.pin3 := rfl

@[simp] theorem setPattern_params (pat : Pattern) (s : State) : (setPattern pat s).params = s.params := rfl
@[simp] theorem setPattern_sink (pat : Pattern) (s : State) : (setPattern pat s).sink = s.sink := rfl
@[simp] theorem setPattern_now (pat : Pattern) (s : State) : (setPattern pat s).now = s.now := rfl
@[simp] theorem setPattern_host (pat : Pattern) (s : State) : (setPattern pat s).host = s.host := rfl
@[simp] theorem setPattern_obs (pat : Pattern) (s : State) : (setPattern pat s).obs = s.obs := rfl
@[simp] theorem setPattern_configured (pat : Pattern) (s : State) :
    (setPattern pat s).regs.configured = s.regs.configured := rfl
@[simp] theorem setPattern_stepCount (pat : Pattern) (s : State) :
    (setPattern pat s).regs.stepCount = pat.stepCount := rfl
@[simp] theorem setPattern_phase1 (pat : Pattern) (s : State) :
    (setPattern pat s).regs.phase1 = pat.masks.phase1 := rfl
@[simp] theorem setPattern_phase2 (pat : Pattern) (s : State) :
    (setPattern pat s).regs.phase2 = pat.masks.phase2 := rfl
@[simp] theorem setPattern_phase3 (pat : Pattern) (s : State) :
    (setPattern pat s).regs.phase3 = pat.masks.phase3 := rfl
@[simp] theorem setPattern_position (pat : Pattern) (s : State) :
    (setPattern pat s).regs.position = s.regs.position := rfl
@[simp] theorem setPattern_running (pat : Pattern) (s : State) :
    (setPattern pat s).regs.running = s.regs.running := rfl
@[simp] theorem setPattern_timeStep (pat : Pattern) (s : State) :
    (setPattern pat s).regs.timeStep = s.regs.timeStep := rfl
@[simp] theorem setPattern_nextUpdate (pat : Pattern) (s : State) :
    (setPattern pat s).regs.nextUpdate = s.regs.nextUpdate := rfl
@[simp] theorem setPattern_speedControl (pat : Pattern) (s : State) :
    (setPattern pat s).regs.speedControl = s.regs.speedControl := rfl
@[simp] theorem setPattern_pin1 (pat : Pattern) (s : State) :
    (setPattern pat s).regs.pin1 = s.regs.pin1 := rfl
@[simp] theorem setPattern_pin2 (pat : Pattern) (s : State) :
    (setPattern pat s).regs.pin2 = s.regs.pin2 := rfl
@[simp] theorem setPattern_pin3 (pat : Pattern) (s : State) :
    (setPattern pat s).regs.pin3 = s.regs.pin3 := rfl

@[simp] theorem setPins_params (p1 p2 p3 : PinId) (s : State) : (setPins p1 p2 p3 s).params = s.params := rfl
@[simp] theorem setPins_sink (p1 p2 p3 : PinId) (s : State) : (setPins p1 p2 p3 s).sink = s.sink := rfl
@[simp] theorem setPins_now (p1 p2 p3 : PinId) (s : State) : (setPins p1 p2 p3 s).now = s.now := rfl
@[simp] theorem setPins_host (p1 p2 p3 : PinId) (s : State) : (setPins p1 p2 p3 s).host = s.host := rfl
@[simp] theorem setPins_obs (p1 p2 p3 : PinId) (s : State) : (setPins p1 p2 p3 s).obs = s.obs := rfl
@[simp] theorem setPins_configured (p1 p2 p3 : PinId) (s : State) :
    (setPins p1 p2 p3 s).regs.configured = s.regs.configured := rfl
@[simp] theorem setPins_stepCount (p1 p2 p3 : PinId) (s : State) :
    (setPins p1 p2 p3 s).regs.stepCount = s.regs.stepCount := rfl
@[simp] theorem setPins_phase1 (p1 p2 p3 : PinId) (s : State) :
    (setPins p1 p2 p3 s).regs.phase1 = s.regs.phase1 := rfl
@[simp] theorem setPins_phase2 (p1 p2 p3 : PinId) (s : State) :
    (setPins p1 p2 p3 s).regs.phase2 = s.regs.phase2 := rfl
@[simp] theorem setPins_phase3 (p1 p2 p3 : PinId) (s : State) :
    (setPins p1 p2 p3 s).regs.phase3 = s.regs.phase3 := rfl
@[simp] theorem setPins_position (p1 p2 p3 : PinId) (s : State) :
    (setPins p1 p2 p3 s).regs.position = s.regs.position := rfl
@[simp] theorem setPins_running (p1 p2 p3 : PinId) (s : State) :
    (setPins p1 p2 p3 s).regs.running = s.regs.running := rfl
@[simp] theorem setPins_timeStep (p1 p2 p3 : PinId) (s : State) :
    (setPins p1 p2 p3 s).regs.timeStep = s.regs.timeStep := rfl
@[simp] theorem setPins_nextUpdate (p1 p2 p3 : PinId) (s : State) :
    (setPins p1 p2 p3 s).regs.nextUpdate = s.regs.nextUpdate := rfl
@[simp] theorem setPins_speedControl (p1 p2 p3 : PinId) (s : State) :
    (setPins p1 p2 p3 s).regs.speedControl = s.regs.speedControl := rfl
@[simp] theorem setPins_pin1 (p1 p2 p3 : PinId) (s : State) :
    (setPins p1 p2 p3 s).regs.pin1 = p1 := rfl
@[simp] theorem setPins_pin2 (p1 p2 p3 : PinId) (s : State) :
    (setPins p1 p2 p3 s).regs.pin2 = p2 := rfl
@[simp] theorem setPins_pin3 (p1 p2 p3 : PinId) (s : State) :
    (setPins p1 p2 p3 s).regs.pin3 = p3 := rfl

@[simp] theorem setConfigured_params (s : State) : (setConfigured s).params = s.params := rfl
@[simp] theorem setConfigured_sink (s : State) : (setConfigured s).sink = s.sink := rfl
@[simp] theorem setConfigured_now (s : State) : (setConfigured s).now = s.now := rfl
@[simp] theorem setConfigured_host (s : State) : (setConfigured s).host = s.host := rfl
@[simp] theorem setConfigured_obs (s : State) : (setConfigured s).obs = s.obs := rfl
@[simp] theorem setConfigured_configured (s : State) :
    (setConfigured s).regs.configured = true := rfl
@[simp] theorem setConfigured_stepCount (s : State) :
    (setConfigured s).regs.stepCount = s.regs.stepCount := rfl
@[simp] theorem setConfigured_phase1 (s : State) :
    (setConfigured s).regs.phase1 = s.regs.phase1 := rfl
@[simp] theorem setConfigured_phase2 (s : State) :
    (setConfigured s).regs.phase2 = s.regs.phase2 := rfl
@[simp] theorem setConfigured_phase3 (s : State) :
    (setConfigured s).regs.phase3 = s.regs.phase3 := rfl
@[simp] theorem setConfigured_position (s : State) :
    (setConfigured s).regs.position = s.regs.position := rfl
@[simp] theorem setConfigured_running (s : State) :
    (setConfigured s).regs.running = s.regs.running := rfl
@[simp] theorem setConfigured_timeStep (s : State) :
    (setConfigured s).regs.timeStep = s.regs.timeStep := rfl
@[simp] theorem setConfigured_nextUpdate (s : State) :
    (setConfigured s).regs.nextUpdate = s.regs.nextUpdate := rfl
@[simp] theorem setConfigured_speedControl (s : State) :
    (setConfigured s).regs.speedControl = s.regs.speedControl := rfl
@[simp] theorem setConfigured_pin1 (s : State) :
    (setConfigured s).regs.pin1 = s.regs.pin1 := rfl
@[simp] theorem setConfigured_pin2 (s : State) :
    (setConfigured s).regs.pin2 = s.regs.pin2 := rfl
@[simp] theorem setConfigured_pin3 (s : State) :
    (setConfigured s).regs.pin3 = s.regs.pin3 := rfl

@[simp] theorem respond_params (st : Status) (b : Bool) (evs : List PinEvent) (s : State) :
    (respond st b evs s).params = s.params := rfl
@[simp] theorem respond_regs (st : Status) (b : Bool) (evs : List PinEvent) (s : State) :
    (respond st b evs s).regs = s.regs := rfl
@[simp] theorem respond_now (st : Status) (b : Bool) (evs : List PinEvent) (s : State) :
    (respond st b evs s).now = s.now := rfl
@[simp] theorem respond_host (st : Status) (b : Bool) (evs : List PinEvent) (s : State) :
    (respond st b evs s).host = s.host := rfl
@[simp] theorem respond_sink (st : Status) (b : Bool) (evs : List PinEvent) (s : State) :
    (respond st b evs s).sink = acceptEvents s.params s.sink evs := rfl
@[simp] theorem respond_obs (st : Status) (b : Bool) (evs : List PinEvent) (s : State) :
    (respond st b evs s).obs = s.obs ++ [⟨respWord st b, evs⟩] := rfl

@[simp] theorem raise_params (st : Status) (s : State) : (raise st s).params = s.params := rfl
@[simp] theorem raise_regs (st : Status) (s : State) : (raise st s).regs = s.regs := rfl
@[simp] theorem raise_now (st : Status) (s : State) : (raise st s).now = s.now := rfl
@[simp] theorem raise_host (st : Status) (s : State) : (raise st s).host = s.host := rfl
@[simp] theorem raise_sink (st : Status) (s : State) : (raise st s).sink = s.sink := rfl
@[simp] theorem raise_obs (st : Status) (s : State) : (raise st s).obs = s.obs ++ [⟨respWord st false, []⟩] := rfl

@[simp] theorem beginTransaction_params (now : ClockWord) (rest : List HostInput) (s : State) :
    (beginTransaction now rest s).params = s.params := rfl
@[simp] theorem beginTransaction_regs (now : ClockWord) (rest : List HostInput) (s : State) :
    (beginTransaction now rest s).regs = s.regs := rfl
@[simp] theorem beginTransaction_sink (now : ClockWord) (rest : List HostInput) (s : State) :
    (beginTransaction now rest s).sink = s.sink := rfl
@[simp] theorem beginTransaction_now (now : ClockWord) (rest : List HostInput) (s : State) :
    (beginTransaction now rest s).now = wrap s.params.clkW now.toNat := rfl
@[simp] theorem beginTransaction_host (now : ClockWord) (rest : List HostInput) (s : State) :
    (beginTransaction now rest s).host = rest := rfl
@[simp] theorem beginTransaction_obs (now : ClockWord) (rest : List HostInput) (s : State) :
    (beginTransaction now rest s).obs = s.obs := rfl

@[simp] theorem powerOn_params (rest : List HostInput) (s : State) : (powerOn rest s).params = s.params := rfl
@[simp] theorem powerOn_regs (rest : List HostInput) (s : State) : (powerOn rest s).regs = Regs.reset := rfl
@[simp] theorem powerOn_sink (rest : List HostInput) (s : State) : (powerOn rest s).sink = PinSink.reset := rfl
@[simp] theorem powerOn_now (rest : List HostInput) (s : State) : (powerOn rest s).now = s.now := rfl
@[simp] theorem powerOn_host (rest : List HostInput) (s : State) : (powerOn rest s).host = rest := rfl
@[simp] theorem powerOn_obs (rest : List HostInput) (s : State) : (powerOn rest s).obs = s.obs := rfl

@[simp] theorem anchor_params (rpm : Nat) (s : State) : (anchor rpm s).params = s.params := rfl
@[simp] theorem anchor_sink (rpm : Nat) (s : State) : (anchor rpm s).sink = s.sink := rfl
@[simp] theorem anchor_now (rpm : Nat) (s : State) : (anchor rpm s).now = s.now := rfl
@[simp] theorem anchor_host (rpm : Nat) (s : State) : (anchor rpm s).host = s.host := rfl
@[simp] theorem anchor_obs (rpm : Nat) (s : State) : (anchor rpm s).obs = s.obs := rfl
@[simp] theorem anchor_configured (rpm : Nat) (s : State) :
    (anchor rpm s).regs.configured = s.regs.configured := rfl
@[simp] theorem anchor_stepCount (rpm : Nat) (s : State) :
    (anchor rpm s).regs.stepCount = s.regs.stepCount := rfl
@[simp] theorem anchor_phase1 (rpm : Nat) (s : State) :
    (anchor rpm s).regs.phase1 = s.regs.phase1 := rfl
@[simp] theorem anchor_phase2 (rpm : Nat) (s : State) :
    (anchor rpm s).regs.phase2 = s.regs.phase2 := rfl
@[simp] theorem anchor_phase3 (rpm : Nat) (s : State) :
    (anchor rpm s).regs.phase3 = s.regs.phase3 := rfl
@[simp] theorem anchor_position (rpm : Nat) (s : State) :
    (anchor rpm s).regs.position = s.regs.position := rfl
@[simp] theorem anchor_running (rpm : Nat) (s : State) :
    (anchor rpm s).regs.running = s.regs.running := rfl
@[simp] theorem anchor_timeStep (rpm : Nat) (s : State) :
    (anchor rpm s).regs.timeStep = wrap s.params.clkW (timeStepOf rpm s.regs.stepCount.toNat) := rfl
@[simp] theorem anchor_nextUpdate (rpm : Nat) (s : State) :
    (anchor rpm s).regs.nextUpdate = addW s.params.clkW s.now (wrap s.params.clkW (timeStepOf rpm s.regs.stepCount.toNat)) := rfl
@[simp] theorem anchor_speedControl (rpm : Nat) (s : State) :
    (anchor rpm s).regs.speedControl = s.regs.speedControl := rfl
@[simp] theorem anchor_pin1 (rpm : Nat) (s : State) :
    (anchor rpm s).regs.pin1 = s.regs.pin1 := rfl
@[simp] theorem anchor_pin2 (rpm : Nat) (s : State) :
    (anchor rpm s).regs.pin2 = s.regs.pin2 := rfl
@[simp] theorem anchor_pin3 (rpm : Nat) (s : State) :
    (anchor rpm s).regs.pin3 = s.regs.pin3 := rfl

@[simp] theorem markOutput_isOutput (p : PinId) (k : PinSink) : (markOutput p k).isOutput = insertPin p k.isOutput := rfl
@[simp] theorem markOutput_level (p : PinId) (k : PinSink) : (markOutput p k).level = k.level := rfl
@[simp] theorem markOutput_sinkFault (p : PinId) (k : PinSink) : (markOutput p k).sinkFault = k.sinkFault := rfl
@[simp] theorem driveLevel_isOutput (p : PinId) (l : Level) (k : PinSink) :
    (driveLevel p l k).isOutput = k.isOutput := rfl
@[simp] theorem driveLevel_level (p : PinId) (l : Level) (k : PinSink) :
    (driveLevel p l k).level = putLevel p l k.level := rfl
@[simp] theorem driveLevel_sinkFault (p : PinId) (l : Level) (k : PinSink) :
    (driveLevel p l k).sinkFault = k.sinkFault := rfl
@[simp] theorem raiseSinkFault_isOutput (k : PinSink) : (raiseSinkFault k).isOutput = k.isOutput := rfl
@[simp] theorem raiseSinkFault_level (k : PinSink) : (raiseSinkFault k).level = k.level := rfl
@[simp] theorem raiseSinkFault_sinkFault (k : PinSink) : (raiseSinkFault k).sinkFault = true := rfl

end Sys2Proof.Machine
end

