-- ==== Sys2Proof/Laws/PinSink.lean ====
section
/-! SUPPORT. The PinSink's lists: what a reading gives after an update, and that every event keeps the canonical form
(20_memory.md R56, R57). -/

namespace Sys2Proof.Machine

theorem getLevel_putLevel (p q : PinId) (l : Level) (xs : List (PinId × Level)) :
    getLevel q (putLevel p l xs) = if q = p then some l else getLevel q xs := by
  induction xs with
  | nil => simp [putLevel, getLevel]
  | cons x xs ih =>
    obtain ⟨x, lx⟩ := x
    unfold putLevel
    split
    · subst p; by_cases h : q = x <;> simp [getLevel, h]
    · split
      · by_cases h : q = p <;> simp [getLevel, h]
      · by_cases h : q = x
        · subst h; simp [getLevel, Ne.symm ‹¬p = q›]
        · simp [getLevel, h, ih]

theorem contains_insertPin (p q : PinId) (xs : List PinId) :
    (insertPin p xs).contains q = (decide (q = p) || xs.contains q) := by
  induction xs with
  | nil => simp [insertPin]
  | cons x xs ih =>
    unfold insertPin
    split
    · subst p; by_cases h : q = x <;> simp [h]
    · split
      · simp
      · rw [List.contains_cons, List.contains_cons, ih, Bool.or_left_comm]

theorem levelAt_markOutput (p q : PinId) (k : PinSink) : levelAt (markOutput p k) q = levelAt k q := rfl

theorem levelAt_driveLevel (p q : PinId) (l : Level) (k : PinSink) :
    levelAt (driveLevel p l k) q = if q = p then some l else levelAt k q := getLevel_putLevel p q l k.level

theorem levelAt_raiseSinkFault (q : PinId) (k : PinSink) : levelAt (raiseSinkFault k) q = levelAt k q := rfl

theorem isOutputAt_markOutput (p q : PinId) (k : PinSink) :
    isOutputAt (markOutput p k) q = (decide (q = p) || isOutputAt k q) := contains_insertPin p q k.isOutput

theorem isOutputAt_driveLevel (p q : PinId) (l : Level) (k : PinSink) :
    isOutputAt (driveLevel p l k) q = isOutputAt k q := rfl

theorem isOutputAt_raiseSinkFault (q : PinId) (k : PinSink) : isOutputAt (raiseSinkFault k) q = isOutputAt k q := rfl

@[simp] theorem levelAt_reset (p : PinId) : levelAt PinSink.reset p = none := rfl

@[simp] theorem isOutputAt_reset (p : PinId) : isOutputAt PinSink.reset p = false := rfl

/-! ### Canonical form -/

theorem mem_insertPin (p q : PinId) (xs : List PinId) : q ∈ insertPin p xs ↔ q = p ∨ q ∈ xs := by
  have h := contains_insertPin p q xs
  rw [← List.contains_iff_mem, h]
  simp

theorem insertPin_rising (p : PinId) (xs : List PinId) (h : xs.Pairwise (· < ·)) :
    (insertPin p xs).Pairwise (· < ·) := by
  induction xs with
  | nil => simp [insertPin]
  | cons x xs ih =>
    obtain ⟨hx, hxs⟩ := List.pairwise_cons.mp h
    unfold insertPin
    split
    · exact h
    · split
      · exact List.pairwise_cons.mpr ⟨by
          intro y hy
          rcases List.mem_cons.mp hy with rfl | hy
          · assumption
          · exact BitVec.lt_trans ‹p < x› (hx y hy), h⟩
      · refine List.pairwise_cons.mpr ⟨fun y hy => ?_, ih hxs⟩
        rcases (mem_insertPin p y xs).mp hy with rfl | hy
        · bv_omega
        · exact hx y hy

theorem putLevel_keys (p : PinId) (l : Level) (xs : List (PinId × Level)) (y : PinId × Level) (hy : y ∈ putLevel p l xs) :
    y.1 = p ∨ y ∈ xs := by
  induction xs with
  | nil => simp_all [putLevel]
  | cons x xs ih =>
    obtain ⟨x, lx⟩ := x
    unfold putLevel at hy
    split at hy
    · rcases List.mem_cons.mp hy with rfl | hy
      · exact .inl rfl
      · exact .inr (List.mem_cons_of_mem _ hy)
    · split at hy
      · rcases List.mem_cons.mp hy with rfl | hy
        · exact .inl rfl
        · exact .inr hy
      · rcases List.mem_cons.mp hy with rfl | hy
        · exact .inr List.mem_cons_self
        · exact (ih hy).imp_right (List.mem_cons_of_mem _)

theorem putLevel_rising (p : PinId) (l : Level) (xs : List (PinId × Level))
    (h : xs.Pairwise (fun a b => a.1 < b.1)) : (putLevel p l xs).Pairwise (fun a b => a.1 < b.1) := by
  induction xs with
  | nil => simp [putLevel]
  | cons x xs ih =>
    obtain ⟨x, lx⟩ := x
    obtain ⟨hx, hxs⟩ := List.pairwise_cons.mp h
    unfold putLevel
    split
    · subst p; exact List.pairwise_cons.mpr ⟨hx, hxs⟩
    · split
      · exact List.pairwise_cons.mpr ⟨by
          intro y hy
          rcases List.mem_cons.mp hy with rfl | hy
          · assumption
          · exact BitVec.lt_trans ‹p < x› (hx y hy), h⟩
      · refine List.pairwise_cons.mpr ⟨fun y hy => ?_, ih hxs⟩
        rcases putLevel_keys p l xs y hy with h1 | hy
        · have : (x, lx).1 = x := rfl
          rw [h1, this]; bv_omega
        · exact hx y hy

theorem PinSink.reset_wf : PinSink.reset.wf := by decide

theorem markOutput_wf (p : PinId) (k : PinSink) (h : k.wf) : (markOutput p k).wf :=
  ⟨insertPin_rising p k.isOutput h.1, h.2⟩

theorem driveLevel_wf (p : PinId) (l : Level) (k : PinSink) (h : k.wf) : (driveLevel p l k).wf :=
  ⟨h.1, putLevel_rising p l k.level h.2⟩

theorem raiseSinkFault_wf (k : PinSink) (h : k.wf) : (raiseSinkFault k).wf := h

theorem acceptEvent_config (q : Params) (k : PinSink) (p : PinId) :
    acceptEvent q k (.config p) = if pinValid q p then markOutput p k else raiseSinkFault k := rfl

theorem acceptEvent_write (q : Params) (k : PinSink) (p : PinId) (l : Level) :
    acceptEvent q k (.write p l) = if pinValid q p then driveLevel p l k else raiseSinkFault k := rfl

/-- Every pin event keeps the canonical form of the PinSink. -/
theorem acceptEvent_wf (q : Params) (k : PinSink) (e : PinEvent) (h : k.wf) : (acceptEvent q k e).wf := by
  cases e with
  | config p =>
    rw [acceptEvent_config]; split
    · exact markOutput_wf _ k h
    · exact raiseSinkFault_wf k h
  | write p l =>
    rw [acceptEvent_write]; split
    · exact driveLevel_wf _ _ k h
    · exact raiseSinkFault_wf k h

/-- Every list of pin events keeps the canonical form of the PinSink. -/
theorem acceptEvents_wf (q : Params) (evs : List PinEvent) (k : PinSink) (h : k.wf) : (acceptEvents q k evs).wf := by
  induction evs generalizing k with
  | nil => exact h
  | cons e evs ih => exact ih _ (acceptEvent_wf q k e h)

/-! ### Rows of events -/

@[simp] theorem acceptEvents_nil (q : Params) (k : PinSink) : acceptEvents q k [] = k := rfl

theorem acceptEvents_cons (q : Params) (k : PinSink) (e : PinEvent) (evs : List PinEvent) :
    acceptEvents q k (e :: evs) = acceptEvents q (acceptEvent q k e) evs := rfl

theorem acceptEvents_append (q : Params) (k : PinSink) (a b : List PinEvent) :
    acceptEvents q k (a ++ b) = acceptEvents q (acceptEvents q k a) b := by simp [acceptEvents]

/-- What one event can do to a reading of a level. -/
theorem levelAt_acceptEvent (q : Params) (k : PinSink) (e : PinEvent) (p : PinId) :
    levelAt (acceptEvent q k e) p = match e with
      | .config _ => levelAt k p
      | .write x l => if pinValid q x = true ∧ p = x then some l else levelAt k p := by
  cases e with
  | config x => rw [acceptEvent_config]; split <;> rfl
  | write x l => rw [acceptEvent_write]; split <;> simp_all [levelAt_driveLevel, levelAt_raiseSinkFault]

/-- What one event can do to a reading of `is_output`. -/
theorem isOutputAt_acceptEvent (q : Params) (k : PinSink) (e : PinEvent) (p : PinId) :
    isOutputAt (acceptEvent q k e) p = match e with
      | .config x => (pinValid q x && decide (p = x)) || isOutputAt k p
      | .write _ _ => isOutputAt k p := by
  cases e with
  | config x => rw [acceptEvent_config]; split <;> simp_all [isOutputAt_markOutput, isOutputAt_raiseSinkFault]
  | write x l => rw [acceptEvent_write]; split <;> rfl

/-- What one event can do to `sink_fault`. -/
theorem sinkFault_acceptEvent (q : Params) (k : PinSink) (e : PinEvent) :
    (acceptEvent q k e).sinkFault = match e with
      | .config x => k.sinkFault || !pinValid q x
      | .write x _ => k.sinkFault || !pinValid q x := by
  cases e with
  | config x => rw [acceptEvent_config]; split <;> simp_all
  | write x l => rw [acceptEvent_write]; split <;> simp_all

/-- Events that write no level to a pin leave its level alone. -/
theorem levelAt_acceptEvents_of_no_write (q : Params) (p : PinId) (evs : List PinEvent) :
    ∀ k : PinSink, (∀ l, PinEvent.write p l ∉ evs) → levelAt (acceptEvents q k evs) p = levelAt k p := by
  induction evs with
  | nil => intro k _; rfl
  | cons e evs ih =>
    intro k h
    rw [acceptEvents_cons, ih _ (fun l hl => h l (List.mem_cons_of_mem _ hl)), levelAt_acceptEvent]
    cases e with
    | config x => rfl
    | write x l =>
      dsimp only
      rw [if_neg]
      rintro ⟨_, rfl⟩
      exact h l List.mem_cons_self

/-- Events that configure no pin leave every pin's `is_output` alone. -/
theorem isOutputAt_acceptEvents_of_no_config (q : Params) (p : PinId) (evs : List PinEvent) :
    ∀ k : PinSink, (∀ x, PinEvent.config x ∉ evs) → isOutputAt (acceptEvents q k evs) p = isOutputAt k p := by
  induction evs with
  | nil => intro k _; rfl
  | cons e evs ih =>
    intro k h
    rw [acceptEvents_cons, ih _ (fun l hl => h l (List.mem_cons_of_mem _ hl)), isOutputAt_acceptEvent]
    cases e with
    | config x => exact absurd List.mem_cons_self (h x)
    | write x l => rfl

end Sys2Proof.Machine
end

