-- ==== Sys2Proof/Laws/Ops.lean ====
section
/-! SUPPORT. What each shared operation can do, said once: the configured check, the gate, the ring step and NEW's register
writes. -/

namespace Sys2Proof.Machine

/-- The check of R202: a configured block runs the command, any other answers UNCONFIGURED. -/
theorem whenConfigured_of_configured (s : State) (run : State → State) (h : s.regs.configured = true) :
    whenConfigured s run = .next (run s) := if_pos h

theorem whenConfigured_of_unconfigured (s : State) (run : State → State) (h : s.regs.configured = false) :
    whenConfigured s run = .next (raise .unconfigured s) := if_neg (by simp [h])

/-- All that the check of R202 can answer. -/
theorem whenConfigured_cases (s t : State) (run : State → State) (h : whenConfigured s run = .next t) :
    (s.regs.configured = true ∧ t = run s) ∨ (s.regs.configured = false ∧ t = raise .unconfigured s) := by
  cases hc : s.regs.configured with
  | true => rw [whenConfigured_of_configured s run hc] at h; exact .inl ⟨rfl, by injection h with h; exact h.symm⟩
  | false => rw [whenConfigured_of_unconfigured s run hc] at h; exact .inr ⟨rfl, by injection h with h; exact h.symm⟩

/-- All that the gate can do (41_speed_gating.md R123): open with the state untouched while speed control is off; open
with the deadline moved on; closed with the state untouched. -/
theorem shouldUpdate_cases (s : State) :
    (s.regs.speedControl = false ∧ shouldUpdate s = (true, s)) ∨
    (s.regs.speedControl = true ∧ due s.params.clkW s.now s.regs.nextUpdate = true ∧
      shouldUpdate s = (true, setNextUpdate (addW s.params.clkW s.regs.nextUpdate s.regs.timeStep) s)) ∨
    (s.regs.speedControl = true ∧ due s.params.clkW s.now s.regs.nextUpdate = false ∧ shouldUpdate s = (false, s)) := by
  unfold shouldUpdate
  cases hs : s.regs.speedControl <;> cases hd : due s.params.clkW s.now s.regs.nextUpdate <;> simp

/-- All that a ring step can do after the gate: nothing but its response, or the move and the mux. -/
theorem stepRing_cases (ring : BitVec 3 → PosWord → PosWord) (s : State) :
    (∃ u, shouldUpdate s = (false, u) ∧ stepRing ring s = respond .ok false [] u) ∨
    (∃ u, shouldUpdate s = (true, u) ∧ stepRing ring s =
      respond .ok true (applyEvents (setPosition (ring u.regs.stepCount u.regs.position) u).regs)
        (setPosition (ring u.regs.stepCount u.regs.position) u)) := by
  unfold stepRing
  split
  · exact .inl ⟨_, ‹_›, rfl⟩
  · exact .inr ⟨_, ‹_›, rfl⟩

/-- A ring step in terms of the registers alone: closed, with nothing but its response; or open, with the position moved,
the deadline moved on under speed control only, and the mux at the new registers. -/
theorem stepRing_regs_cases (ring : BitVec 3 → PosWord → PosWord) (s : State) :
    ((s.regs.speedControl = true ∧ due s.params.clkW s.now s.regs.nextUpdate = false) ∧
      stepRing ring s = respond .ok false [] s) ∨
    ((s.regs.speedControl = true → due s.params.clkW s.now s.regs.nextUpdate = true) ∧
      ∃ r : Regs, r = { s.regs with
          position := ring s.regs.stepCount s.regs.position
          nextUpdate := if s.regs.speedControl = true
            then addW s.params.clkW s.regs.nextUpdate s.regs.timeStep else s.regs.nextUpdate } ∧
        stepRing ring s = respond .ok true (applyEvents r) { s with regs := r }) := by
  unfold stepRing
  rcases shouldUpdate_cases s with ⟨h0, h⟩ | ⟨h0, h1, h⟩ | ⟨h0, h1, h⟩ <;> rw [h]
  · exact .inr ⟨by simp [h0], _, rfl, by rw [if_neg (by simp [h0])]; rfl⟩
  · exact .inr ⟨by simp [h1], _, rfl, by rw [if_pos h0]; rfl⟩
  · exact .inl ⟨⟨h0, h1⟩, rfl⟩

/-- The mux writes only the block's three pins (43_phase_output.md R160). -/
theorem mem_applyEvents (r : Regs) (e : PinEvent) (h : e ∈ applyEvents r) :
    ∃ p l, e = .write p l ∧ (p = r.pin1 ∨ p = r.pin2 ∨ p = r.pin3) := by
  unfold applyEvents at h
  split at h
  · simp only [List.mem_cons, List.not_mem_nil, or_false] at h
    rcases h with h | h | h
    · exact ⟨_, _, h, .inl rfl⟩
    · exact ⟨_, _, h, .inr (.inl rfl)⟩
    · exact ⟨_, _, h, .inr (.inr rfl)⟩
  · simp at h

theorem applyEvents_released (r : Regs) (h : r.running = false) : applyEvents r = [] := if_neg (by simp [h])

theorem applyEvents_running (r : Regs) (h : r.running = true) :
    applyEvents r = [.write r.pin1 (levelOf (r.phase1 &&& r.position)),
      .write r.pin2 (levelOf (r.phase2 &&& r.position)), .write r.pin3 (levelOf (r.phase3 &&& r.position))] := if_pos h

/-- Every register after NEW (40_construction.md R104). -/
theorem newRegisters_regs (p1 p2 p3 : PinId) (ptype : BitVec 8) (s : State) :
    (newRegisters p1 p2 p3 ptype s).regs =
      { configured := true
        stepCount := (patternOf s.params (selectPattern s.params ptype)).stepCount
        phase1 := (patternOf s.params (selectPattern s.params ptype)).masks.phase1
        phase2 := (patternOf s.params (selectPattern s.params ptype)).masks.phase2
        phase3 := (patternOf s.params (selectPattern s.params ptype)).masks.phase3
        position := 1#8
        running := true
        timeStep := wrap s.params.clkW (timeStepOf s.params.defaultRpm
          (patternOf s.params (selectPattern s.params ptype)).stepCount.toNat)
        nextUpdate := addW s.params.clkW s.now (wrap s.params.clkW (timeStepOf s.params.defaultRpm
          (patternOf s.params (selectPattern s.params ptype)).stepCount.toNat))
        speedControl := false
        pin1 := p1
        pin2 := p2
        pin3 := p3 } := rfl

@[simp] theorem newRegisters_params (p1 p2 p3 : PinId) (ptype : BitVec 8) (s : State) :
    (newRegisters p1 p2 p3 ptype s).params = s.params := rfl
@[simp] theorem newRegisters_sink (p1 p2 p3 : PinId) (ptype : BitVec 8) (s : State) :
    (newRegisters p1 p2 p3 ptype s).sink = s.sink := rfl
@[simp] theorem newRegisters_now (p1 p2 p3 : PinId) (ptype : BitVec 8) (s : State) :
    (newRegisters p1 p2 p3 ptype s).now = s.now := rfl
@[simp] theorem newRegisters_host (p1 p2 p3 : PinId) (ptype : BitVec 8) (s : State) :
    (newRegisters p1 p2 p3 ptype s).host = s.host := rfl
@[simp] theorem newRegisters_obs (p1 p2 p3 : PinId) (ptype : BitVec 8) (s : State) :
    (newRegisters p1 p2 p3 ptype s).obs = s.obs := rfl

end Sys2Proof.Machine
end

