-- ==== Sys2Proof/Laws/PerInstr.lean ====
section
/-! SUPPORT. Statements made per instruction: each command's word stands in its own row of spec/opcode_table.json, so that
its opcode is right and no reserved bit is set (30_encoding.md R76, R77, R79). -/

namespace Sys2Proof.Laws.TableRow

/-- The word of a command matches its row of the opcode table. -/
def Statement (i : Instr) : Prop := encode i &&& rowMask i = rowMatch i

theorem new (p1 p2 p3 : PinId) (pt : BitVec 8) : Statement (.new p1 p2 p3 pt) := by
  apply BitVec.eq_of_getLsbD_eq
  intro k hk
  simp only [encode, rowMask, rowMatch, BitVec.getLsbD_and, BitVec.getLsbD_append]
  interval_cases k <;> simp

theorem setSpeed (rpm : Int) : Statement (.setSpeed rpm) := by
  apply BitVec.eq_of_getLsbD_eq
  intro k hk
  simp only [encode, rowMask, rowMatch, BitVec.getLsbD_and, BitVec.getLsbD_append]
  interval_cases k <;> simp

theorem setSpeedControl (en : Bool) : Statement (.setSpeedControl en) := by
  cases en <;> (unfold Statement; decide)

theorem stepFwd : Statement .stepFwd := by unfold Statement; decide

theorem stepBwd : Statement .stepBwd := by unfold Statement; decide

theorem release : Statement .release := by unfold Statement; decide

theorem resume : Statement .resume := by unfold Statement; decide

theorem apply : Statement .apply := by unfold Statement; decide

end Sys2Proof.Laws.TableRow
end

