-- ==== Sys2Proof/Laws/Ring.lean ====
section
/-! SUPPORT. The ring as arithmetic on ring indexes (42_stepping.md R144). -/

namespace Sys2Proof.Machine

/-- One step forward is one index up, modulo the step count. -/
theorem ringFwd_index (sc : BitVec 3) (i : Nat) (h : sc = 3#3 ∨ sc = 6#3) (hi : i < sc.toNat) :
    ringFwd sc (BitVec.ofNat 8 (1 <<< i)) = BitVec.ofNat 8 (1 <<< ((i + 1) % sc.toNat)) := by
  rcases h with rfl | rfl <;> simp at hi <;> interval_cases i <;> decide

/-- One step backward is one index down, modulo the step count. -/
theorem ringBwd_index (sc : BitVec 3) (i : Nat) (h : sc = 3#3 ∨ sc = 6#3) (hi : i < sc.toNat) :
    ringBwd sc (BitVec.ofNat 8 (1 <<< i)) = BitVec.ofNat 8 (1 <<< ((i + sc.toNat - 1) % sc.toNat)) := by
  rcases h with rfl | rfl <;> simp at hi <;> interval_cases i <;> decide

/-- Different indexes are different positions. -/
theorem position_index_inj (a b : Nat) (ha : a < 8) (hb : b < 8)
    (h : BitVec.ofNat 8 (1 <<< a) = BitVec.ofNat 8 (1 <<< b)) : a = b := by
  interval_cases a <;> interval_cases b <;> first | rfl | (revert h; decide)

end Sys2Proof.Machine
end

