-- ==== Sys2Proof/Laws/Step.lean ====
section
/-! SUPPORT. What a command and a step can do, said once, and runs of several steps taken apart. -/

namespace Sys2Proof.Machine

/-- Two next states that are equal outcomes are equal states. -/
theorem next_inj {a b : State} (h : (Host.Outcome.next a : Host.Outcome State Fault Refusal) = .next b) : a = b := by
  injection h

/-! ### One command -/

/-- Every command answers a next state, in every state. -/
theorem exec_next (i : Instr) (s : State) : ∃ t, exec i s = .next t := by
  cases i <;> simp only [exec, execNew, execSetSpeed, execSetSpeedControl, execStepFwd, execStepBwd, execRelease,
    execResume, execApply, whenConfigured] <;> (try split) <;> exact ⟨_, rfl⟩

/-- `t` is `s` after a command that answers `st` and `r`: one response, its events at the PinSink, the ports and parameters
as they were, and no register written unless the status is OK. -/
def Answers (s t : State) (st : Status) (r : Bool) : Prop :=
  t.params = s.params ∧ t.now = s.now ∧ t.host = s.host ∧
  ∃ evs, t.obs = s.obs ++ [⟨respWord st r, evs⟩] ∧ t.sink = acceptEvents s.params s.sink evs ∧
    (st ≠ .ok → evs = [] ∧ t.regs = s.regs)

/-- Registers written and then OK. -/
theorem answers_respond_ok (s : State) (regs : Regs) (r : Bool) (evs : List PinEvent) :
    Answers s (respond .ok r evs { s with regs := regs }) .ok r :=
  ⟨rfl, rfl, rfl, evs, rfl, rfl, fun h => absurd rfl h⟩

theorem answers_raise (s : State) (st : Status) : Answers s (raise st s) st false :=
  ⟨rfl, rfl, rfl, [], rfl, rfl, fun _ => ⟨rfl, rfl⟩⟩

theorem answers_stepRing (ring : BitVec 3 → PosWord → PosWord) (s : State) :
    ∃ r, Answers s (stepRing ring s) .ok r := by
  rcases stepRing_regs_cases ring s with ⟨_, h⟩ | ⟨_, regs, _, h⟩
  · exact ⟨false, h ▸ answers_respond_ok s s.regs false []⟩
  · exact ⟨true, h ▸ answers_respond_ok s regs true _⟩

/-- What a command that checks `configured` first answers, from what it answers on a configured block. -/
theorem answers_whenConfigured (s t : State) (run : State → State) (st : Status) (q : Bool)
    (h : whenConfigured s run = .next t) (hr : ∃ r, (r = true → q = true) ∧ Answers s (run s) st r) :
    ∃ r, (r = true → s.regs.configured = true ∧ q = true) ∧
      Answers s t (if s.regs.configured = false then .unconfigured else st) r := by
  rcases whenConfigured_cases s t run h with ⟨hc, rfl⟩ | ⟨hc, rfl⟩
  · obtain ⟨r, hq, hr⟩ := hr
    exact ⟨r, fun h => ⟨hc, hq h⟩, by rw [hc]; exact hr⟩
  · exact ⟨false, by simp, by rw [hc]; exact answers_raise s _⟩

/-- What every command shows outside: its status, when its result can be 1, and that a rejected one changes nothing. -/
theorem exec_answers (i : Instr) (s t : State) (h : exec i s = .next t) :
    ∃ st r, Answers s t st r ∧
      st = (if s.regs.configured = false ∧ isNew i = false then .unconfigured
        else if isBadSpeed i = true then .invalidArgument else .ok) ∧
      (r = true → st = .ok ∧ isStep i = true) := by
  have gated : ∀ (run : State → State) (st : Status) (q : Bool), isNew i = false →
      st = (if isBadSpeed i = true then .invalidArgument else .ok) → (q = true → st = .ok ∧ isStep i = true) →
      exec i s = whenConfigured s run → (∃ r, (r = true → q = true) ∧ Answers s (run s) st r) →
      ∃ st r, Answers s t st r ∧
        st = (if s.regs.configured = false ∧ isNew i = false then .unconfigured
          else if isBadSpeed i = true then .invalidArgument else .ok) ∧
        (r = true → st = .ok ∧ isStep i = true) := by
    intro run st q hn hst hq he hr
    rw [he] at h
    obtain ⟨r, h1, h2⟩ := answers_whenConfigured s t run st q h hr
    refine ⟨_, r, h2, ?_, ?_⟩
    · rw [hn, hst]; simp
    · intro h3
      obtain ⟨hc, h4⟩ := h1 h3
      rw [hc]
      exact ⟨(hq h4).1, (hq h4).2⟩
  cases i with
  | new p1 p2 p3 pt =>
    obtain rfl := next_inj h
    exact ⟨.ok, false, answers_respond_ok s (newRegisters p1 p2 p3 pt s).regs false _, by simp [isNew, isBadSpeed], by simp⟩
  | setSpeed rpm =>
    have he : exec (.setSpeed rpm) s = whenConfigured s (fun s =>
      if rpm ≤ 0 then raise .invalidArgument s else respond .ok false [] (anchor rpm.toNat s)) := rfl
    by_cases hr : rpm ≤ 0
    · refine gated _ .invalidArgument false rfl (by simp [isBadSpeed, hr]) (by simp) he ⟨false, id, ?_⟩
      simp only [if_pos hr]
      exact answers_raise s _
    · refine gated _ .ok false rfl (by simp [isBadSpeed, hr]) (by simp) he ⟨false, id, ?_⟩
      simp only [if_neg hr]
      exact answers_respond_ok s (anchor rpm.toNat s).regs false []
  | setSpeedControl en =>
    exact gated (fun s => respond .ok false [] (setSpeedControl en s)) .ok false rfl rfl (by simp) rfl
      ⟨false, id, answers_respond_ok s _ false []⟩
  | stepFwd =>
    obtain ⟨r, hr⟩ := answers_stepRing ringFwd s
    exact gated _ .ok true rfl rfl (fun _ => ⟨rfl, rfl⟩) rfl ⟨r, fun _ => rfl, hr⟩
  | stepBwd =>
    obtain ⟨r, hr⟩ := answers_stepRing ringBwd s
    exact gated _ .ok true rfl rfl (fun _ => ⟨rfl, rfl⟩) rfl ⟨r, fun _ => rfl, hr⟩
  | release =>
    exact gated (fun s => respond .ok false (driveAllLowEvents s.regs) (setRunning false s)) .ok false rfl rfl (by simp)
      rfl ⟨false, id, answers_respond_ok s _ false _⟩
  | resume =>
    exact gated (fun s => respond .ok false [] (setRunning true s)) .ok false rfl rfl (by simp) rfl
      ⟨false, id, answers_respond_ok s _ false []⟩
  | apply =>
    exact gated (fun s => respond .ok false (applyEvents s.regs) s) .ok false rfl rfl (by simp) rfl
      ⟨false, id, answers_respond_ok s s.regs false _⟩

/-- The status field of a response is its status. -/
theorem statusField_respWord (st : Status) (r : Bool) (evs : List PinEvent) :
    statusField ⟨respWord st r, evs⟩ = statusCode st := by
  show (respWord st r).extractLsb' 0 2 = _
  cases st <;> cases r <;> decide

/-- The two step commands. -/
theorem isStep_cases (i : Instr) (h : isStep i = true) : i = .stepFwd ∨ i = .stepBwd := by
  cases i <;> simp [isStep] at h ⊢

/-! ### One step -/

/-- A step that has nothing presented. -/
theorem step_of_host_nil (s : State) (h : s.host = []) : step s = .next (idle s) := by unfold step; simp only [h]

/-- A step that has a power-on reset presented. -/
theorem step_of_host_reset (s : State) (rest : List HostInput) (h : s.host = .powerOnReset :: rest) :
    step s = .next (powerOn rest s) := by unfold step; simp only [h]

/-- A step that has a command word presented. -/
theorem step_of_host_command (s : State) (cmd : CmdWord) (now : ClockWord) (rest : List HostInput)
    (h : s.host = .command cmd now :: rest) :
    step s = match decode cmd with
      | .ok i => exec i (beginTransaction now rest s)
      | .error _ => .next (raise .illegal (beginTransaction now rest s)) := by
  cases hd : decode cmd <;> simp only [step, h, hd]

/-! ### Runs -/

theorem runSteps_zero (s : State) : runSteps 0 s = .next s := rfl

/-- The first step of a run, and the run after it. -/
theorem runSteps_succ_next (n : Nat) (s u : State) (h : step s = .next u) : runSteps (n + 1) s = runSteps n u := by
  simp only [runSteps, h]

/-- A run here is a run of the machine behind the host's interface. -/
theorem runSteps_eq_run (n : Nat) : ∀ s : State, runSteps n s = Sys2Proof.core.run n s := by
  induction n with
  | zero => intro s; rfl
  | succ n ih =>
    intro s
    cases h : step s with
    | next t =>
      have h' : Sys2Proof.core.step s = .next t := h
      simp only [runSteps, Host.Core.run, h, h', ih]
      rfl
    | fault r => cases r
    | refused r =>
      have h' : Sys2Proof.core.step s = .refused r := h
      simp only [runSteps, Host.Core.run, h, h']
      rfl

end Sys2Proof.Machine
end

