-- ==== Sys2Proof/Tests/Slice0.lean ====
section
/-! SUPPORT. Tests of the model against the vectors of 95_test_vectors.md (named V<n> and P<n> below), and a witness for the
hypotheses of every obligation that has any. -/

namespace Sys2Proof.Tests

open Sys2Proof.Machine

/-! ### Small states -/

/-- The parameters of 95_test_vectors.md: `CLK_W` 32, the default masks, `PIN_VALID` for every pin the vectors use. -/
def params : Params :=
  { clkW := .w32, maskOverlap := maskOverlapDefault, defaultRpm := 500, defaultPattern := .single,
    validPins := [1#8, 2#8, 3#8, 5#8, 6#8, 7#8, 9#8, 10#8, 11#8] }

/-- A running SINGLE block at a position, speed control off, pins 9, 10, 11. -/
def single (pos : Nat) : Regs :=
  { configured := true, stepCount := 3#3, phase1 := 4#8, phase2 := 2#8, phase3 := 1#8, position := BitVec.ofNat 8 pos,
    running := true, timeStep := 40000#64, nextUpdate := 40000#64, speedControl := false,
    pin1 := 9#8, pin2 := 10#8, pin3 := 11#8 }

/-- A running OVERLAP block at a position, speed control off, pins 9, 10, 11. -/
def overlap (pos : Nat) : Regs :=
  { single pos with
    stepCount := 6#3, phase1 := 0x38#8, phase2 := 0x0E#8, phase3 := 0x23#8, timeStep := 20000#64, nextUpdate := 20000#64 }

/-- A block with these registers at a clock sample, its pins registered and none driven. -/
def block (r : Regs) (now : Nat) : State :=
  { params := params, regs := r, sink := { isOutput := [9#8, 10#8, 11#8], level := [], sinkFault := false },
    now := BitVec.ofNat 64 now, host := [], obs := [] }

/-- The block of State.reset with the parameters above. -/
def fresh : State := { State.reset with params := params }

/-- The same state with words presented, each at a clock value. -/
def given (s : State) (cmds : List (CmdWord × Nat)) : State :=
  { s with host := cmds.map fun c => .command c.1 (BitVec.ofNat 64 c.2) }

/-- The outcome is a next state of which the predicate holds. -/
def nextIs (o : Host.Outcome State Fault Refusal) (p : State → Bool) : Bool :=
  match o with
  | .next t => p t
  | .fault _ => false
  | .refused _ => false

/-- A next state with a decidable property, from its evaluation. -/
theorem exists_next {o : Host.Outcome State Fault Refusal} {p : State → Bool} (h : nextIs o p = true) :
    ∃ t, o = .next t ∧ p t = true := by
  cases o with
  | next t => exact ⟨t, rfl, h⟩
  | fault r => cases r
  | refused r => cases h

/-- The events of one phase at pins 9, 10, 11. -/
def writes (a b c : Level) : List PinEvent := [.write 9#8 a, .write 10#8 b, .write 11#8 c]

/-! ### Well-formed commands -/

/-- 30_encoding.md R73: one above the greatest 32-bit speed has no word. -/
theorem test_wellFormed_refuses_speed_too_great : (Instr.setSpeed 2147483648).wellFormed = false := by decide

/-- 30_encoding.md R73: one below the least 32-bit speed has no word. -/
theorem test_wellFormed_refuses_speed_too_small : (Instr.setSpeed (-2147483649)).wellFormed = false := by decide

theorem test_wellFormed_accepts_the_ends :
    (Instr.setSpeed 2147483647).wellFormed = true ∧ (Instr.setSpeed (-2147483648)).wellFormed = true := by decide

/-! ### Decoding (V1), every word written bit by bit from its format -/

/-- Format C: opcode 0000_0001, 24 reserved zeros, ptype 1, pin3 11, pin2 10, pin1 9. -/
theorem test_decode_new :
    decode 0b00000001_000000000000000000000000_00000001_00001011_00001010_00001001#64 =
      .ok (.new 9#8 10#8 11#8 1#8) := by decide

/-- Format S: opcode 0000_0010, 24 reserved zeros, rpm 500. -/
theorem test_decode_setSpeed :
    decode 0b00000010_000000000000000000000000_00000000000000000000000111110100#64 = .ok (.setSpeed 500) := by decide

/-- Format S: the sign bit of the 32-bit field is bit 31 (R73). -/
theorem test_decode_setSpeed_least :
    decode 0b00000010_000000000000000000000000_10000000000000000000000000000000#64 = .ok (.setSpeed (-2147483648)) := by
  decide

/-- Format B: opcode 0000_0011, 55 reserved zeros, en. -/
theorem test_decode_setSpeedControl :
    decode (0b00000011#8 ++ 0#55 ++ 0b1#1) = .ok (.setSpeedControl true) ∧
    decode (0b00000011#8 ++ 0#55 ++ 0b0#1) = .ok (.setSpeedControl false) := by decide

/-- Format N: the opcode and 56 reserved zeros. -/
theorem test_decode_stepFwd : decode (0b00000100#8 ++ 0#56) = .ok .stepFwd := by decide
theorem test_decode_stepBwd : decode (0b00000101#8 ++ 0#56) = .ok .stepBwd := by decide
theorem test_decode_release : decode (0b00000110#8 ++ 0#56) = .ok .release := by decide
theorem test_decode_resume : decode (0b00000111#8 ++ 0#56) = .ok .resume := by decide
theorem test_decode_apply : decode (0b00001000#8 ++ 0#56) = .ok .apply := by decide

/-- V1: the unassigned opcodes next to the assigned ones, and the last. -/
theorem test_decode_unassigned_opcodes :
    decode 0x0000000000000000#64 = .error (.unassignedOpcode 0x00#8) ∧
    decode 0x0900000000000000#64 = .error (.unassignedOpcode 0x09#8) ∧
    decode 0xFF00000000000000#64 = .error (.unassignedOpcode 0xFF#8) := by decide

/-- V1: reserved bits at both ends of each format's reserved field. -/
theorem test_decode_reserved_bits :
    decode 0x0100000100000000#64 = .error (.reservedBits 0x01#8) ∧
    decode 0x0180000000000000#64 = .error (.reservedBits 0x01#8) ∧
    decode 0x02000001000001F4#64 = .error (.reservedBits 0x02#8) ∧
    decode 0x0300000000000002#64 = .error (.reservedBits 0x03#8) ∧
    decode 0x0300000080000001#64 = .error (.reservedBits 0x03#8) ∧
    decode 0x0400000000000001#64 = .error (.reservedBits 0x04#8) ∧
    decode 0x0880000000000000#64 = .error (.reservedBits 0x08#8) := by decide

/-- One command of each row of the opcode table. -/
def rows : List Instr :=
  [.new 0#8 0#8 0#8 0#8, .setSpeed 0, .setSpeedControl false, .stepFwd, .stepBwd, .release, .resume, .apply]

/-- No word matches two rows of the opcode table. -/
theorem test_rows_do_not_overlap :
    rows.Pairwise (fun i j => rowMatch i &&& (rowMask i &&& rowMask j) ≠ rowMatch j &&& (rowMask i &&& rowMask j)) := by
  decide

/-- 20_memory.md R62: byte 0 first, so SET_SPEED 500 moves as F4 01 00 00 00 00 00 02. -/
theorem test_decodeBytes :
    decodeBytes [0xF4#8, 0x01#8, 0x00#8, 0x00#8, 0x00#8, 0x00#8, 0x00#8, 0x02#8, 0xAA#8] =
      .ok (.setSpeed 500, [0xAA#8]) ∧
    decodeBytes [0xF4#8] = .error .tooFewBytes := by decide

/-- A row of the opcode table at zero operands. -/
theorem test_decodeTableWord :
    decodeTableWord 64 0x0100000000000000 = some (.new 0#8 0#8 0#8 0#8) ∧
    decodeTableWord 64 0x0800000000000000 = some .apply ∧ decodeTableWord 64 0 = none := by decide

/-! ### Assembly (30_encoding.md R82; P1, P4 and P7) -/

theorem test_assemble_clock_prefix :
    assembleLine "@0xFFFFF000 NEW 9, 10, 11, SINGLE ; start".toList =
      .ok (some ⟨some 0xFFFFF000, 0x01000000000B0A09#64⟩) := by decide

theorem test_assemble_raw_word :
    assembleLine "@2000 .cmd 0x0200_0001_0000_01F4".toList = .ok (some ⟨some 2000, 0x02000001000001F4#64⟩) := by decide

theorem test_assemble_rejects_out_of_range :
    assembleLine "NEW 9, 10, 256, SINGLE".toList = .error .outOfRange ∧
    assembleLine "SET_SPEED 2147483648".toList = .error .outOfRange ∧
    assembleLine "SET_SPEED_CONTROL 2".toList = .error .outOfRange ∧
    assembleLine "SET_SPEED -2147483648".toList = .ok (some ⟨none, 0x0200000080000000#64⟩) := by decide

/-- 00_scope.md R12: underscores group digits, so a numeral has a digit before any underscore (log entry 17). -/
theorem test_assemble_underscores :
    assembleLine "NEW _, 10, 11, SINGLE".toList = .error .syntaxError ∧
    assembleLine "SET_SPEED _5".toList = .error .syntaxError ∧
    assembleLine ".cmd 0x_05".toList = .error .syntaxError ∧
    assembleLine "SET_SPEED 5_00".toList = .ok (some ⟨none, 0x02000000000001F4#64⟩) := by decide

/-- A clock value above both clock widths is kept whole (log entry 18). -/
theorem test_assemble_clock_unbounded :
    assembleLine "@0x1_0000_0000_0000_0000 APPLY".toList =
      .ok (some ⟨some 0x10000000000000000, 0x0800000000000000#64⟩) := by decide

/-! ### NEW (V3) -/

/-- V3, last row: a configured SINGLE block at position 4 under speed control is constructed anew as OVERLAP. -/
theorem test_new_overlap_again :
    nextIs (exec (.new 9#8 10#8 11#8 1#8) (block { single 4 with speedControl := true } 0)) (fun t =>
      t.regs == { overlap 1 with pin1 := 9#8 } &&
      t.obs == [⟨0x00#8, [.config 9#8, .config 10#8, .config 11#8]⟩]) = true := by decide

/-- V3, row 4: the deadline wraps, and no pin is driven. -/
theorem test_new_deadline_wraps :
    nextIs (exec (.new 9#8 10#8 11#8 0#8) (block (single 4) 0xFFFFF000)) (fun t =>
      t.regs == { single 1 with nextUpdate := 0x8C40#64 } && t.sink.level == []) = true := by decide

/-! ### SET_SPEED (V5) -/

theorem test_setSpeed_wraps :
    nextIs (exec (.setSpeed 500) (block (single 1) 0xFFFFFFFF)) (fun t =>
      t.regs == { single 1 with nextUpdate := 0x9C3F#64 } && t.obs == [⟨0x00#8, []⟩]) = true := by decide

theorem test_setSpeed_rejects_zero :
    nextIs (exec (.setSpeed 0) (block (single 1) 7)) (fun t =>
      t.regs == single 1 && t.obs == [⟨0x01#8, []⟩]) = true := by decide

/-- V4: the two divisions, at the speeds where they turn to 1 and to 0. -/
theorem test_timeStep :
    timeStepOf 7 3 = 2857142 ∧ timeStepOf 7 6 = 1428571 ∧ timeStepOf 3000 3 = 6666 ∧ timeStepOf 20000000 3 = 1 ∧
    timeStepOf 20000001 3 = 0 ∧ timeStepOf 10000000 6 = 1 ∧ timeStepOf 10000001 6 = 0 := by decide

/-! ### SET_SPEED_CONTROL -/

/-- P2, line 2: the deadline does not move. -/
theorem test_setSpeedControl :
    nextIs (exec (.setSpeedControl true) (block (single 1) 100)) (fun t =>
      t.regs == { single 1 with speedControl := true } && t.obs == [⟨0x00#8, []⟩]) = true := by decide

/-! ### The comparator (V6) -/

theorem test_due_w32 :
    due .w32 5#64 5#64 = true ∧ due .w32 4#64 5#64 = false ∧ due .w32 0x7FFFFFFF#64 0#64 = true ∧
    due .w32 0x80000000#64 0#64 = false ∧ due .w32 0#64 0x80000001#64 = true ∧ due .w32 0#64 0x80000000#64 = false ∧
    due .w32 0#64 0xFFFFFFFF#64 = true ∧ due .w32 0xFFFFFFFF#64 0x8C40#64 = false ∧
    due .w32 0xFFFFF000#64 0x8C40#64 = false := by decide

theorem test_due_w64 :
    due .w64 0x7FFFFFFFFFFFFFFF#64 0#64 = true ∧ due .w64 0x8000000000000000#64 0#64 = false ∧
    due .w64 0xFFFFF000#64 0x8C40#64 = true := by decide

/-! ### STEP_FWD and STEP_BWD (V9) -/

/-- V9, row 5: the ring wraps from 32 to 1. -/
theorem test_stepFwd_wraps :
    nextIs (exec .stepFwd (block (overlap 32) 0)) (fun t =>
      t.regs == overlap 1 && t.obs == [⟨0x04#8, writes .low .low .high⟩]) = true := by decide

/-- V9, row 7: one microsecond early. -/
theorem test_stepFwd_not_due :
    nextIs (exec .stepFwd (block { single 2 with speedControl := true, nextUpdate := 50000#64 } 49999)) (fun t =>
      t.regs == { single 2 with speedControl := true, nextUpdate := 50000#64 } &&
      t.obs == [⟨0x00#8, []⟩]) = true := by decide

/-- V9, row 4: the ring wraps from 1 to 32. -/
theorem test_stepBwd_wraps :
    nextIs (exec .stepBwd (block (overlap 1) 0)) (fun t =>
      t.regs == overlap 32 && t.obs == [⟨0x04#8, writes .high .low .high⟩]) = true := by decide

/-- V9, row 8: due exactly at the deadline. -/
theorem test_stepBwd_due :
    nextIs (exec .stepBwd (block { single 2 with speedControl := true, nextUpdate := 50000#64 } 50000)) (fun t =>
      t.regs == { single 1 with speedControl := true, nextUpdate := 90000#64 } &&
      t.obs == [⟨0x04#8, writes .low .low .high⟩]) = true := by decide

/-! ### RELEASE, RESUME and APPLY (V10) -/

/-- V10: a block that is already released drives all pins LOW again. -/
theorem test_release_again :
    nextIs (exec .release (block { single 1 with running := false } 0)) (fun t =>
      t.regs == { single 1 with running := false } && t.obs == [⟨0x00#8, writes .low .low .low⟩] &&
      t.sink.level == [(9#8, .low), (10#8, .low), (11#8, .low)]) = true := by decide

/-- V10: RESUME writes no pin. -/
theorem test_resume :
    nextIs (exec .resume (block { single 1 with running := false } 0)) (fun t =>
      t.regs == single 1 && t.obs == [⟨0x00#8, []⟩] && t.sink.level == []) = true := by decide

/-- V10: OVERLAP at position 8. -/
theorem test_apply_overlap :
    nextIs (exec .apply (block (overlap 8) 0)) (fun t =>
      t.regs == overlap 8 && t.obs == [⟨0x00#8, writes .high .high .low⟩]) = true := by decide

/-- V10: pins (5, 5, 6) at SINGLE position 4: phase 2 wins on pin 5. -/
theorem test_apply_shared_pin :
    nextIs (exec .apply (block { single 4 with pin1 := 5#8, pin2 := 5#8, pin3 := 6#8 } 0)) (fun t =>
      levelAt t.sink 5#8 == some .low && levelAt t.sink 6#8 == some .low) = true := by decide

/-- 20_memory.md R55: LOW is stored as 0 and HIGH as 1. -/
theorem test_levelBit : levelBit .low = 0#1 ∧ levelBit .high = 1#1 := by decide

/-! ### Steps (V2) and the interface -/

/-- V2: ILLEGAL beats UNCONFIGURED, which beats INVALID_ARGUMENT. -/
theorem test_step_priority :
    nextIs (step (given fresh [(0x0400000000000001#64, 0)])) (fun t => t.obs == [⟨0x02#8, []⟩]) = true ∧
    nextIs (step (given fresh [(0x0200000000000000#64, 0)])) (fun t => t.obs == [⟨0x03#8, []⟩]) = true ∧
    nextIs (step (given (block (single 1) 0) [(0x0200010000000000#64, 0)])) (fun t => t.obs == [⟨0x02#8, []⟩]) = true := by
  decide

/-- The word placed by withFetchWord is the one the next step runs, from reset: NEW with every field 0 constructs. -/
theorem test_withFetchWord :
    nextIs (step (fresh.withFetchWord 64 0x0100000000000000)) (fun t =>
      t.regs.configured && t.regs.position == 1#8 && t.host == []) = true ∧
    nextIs (step (fresh.withFetchWord 64 0x0400000000000000)) (fun t => t.obs == [⟨0x03#8, []⟩]) = true := by decide

/-- A power-on reset in the middle of a run (70_reset_and_hazards.md R230). -/
theorem test_step_reset :
    nextIs (step { block (single 1) 5 with host := [.powerOnReset] }) (fun t =>
      t.regs == Regs.reset && t.sink == PinSink.reset && t.obs == []) = true := by decide

/-! ### Witnesses for the hypotheses of the obligations -/

/-- A row of the opcode table for each clause, at the ends of its fields, and a word of no row. -/
theorem witness_DecodeReadsEveryRow :
    0x01000000FFFFFFFF#64 &&& 0xFFFFFFFF00000000#64 = 0x0100000000000000#64 ∧
    0x0200000080000000#64 &&& 0xFFFFFFFF00000000#64 = 0x0200000000000000#64 ∧
    0x0300000000000001#64 &&& 0xFFFFFFFFFFFFFFFE#64 = 0x0300000000000000#64 ∧
    (let w := 0x0400000000000001#64
     w &&& 0xFFFFFFFF00000000#64 ≠ 0x0100000000000000#64 ∧ w &&& 0xFFFFFFFF00000000#64 ≠ 0x0200000000000000#64 ∧
     w &&& 0xFFFFFFFFFFFFFFFE#64 ≠ 0x0300000000000000#64 ∧ w ≠ 0x0400000000000000#64 ∧ w ≠ 0x0500000000000000#64 ∧
     w ≠ 0x0600000000000000#64 ∧ w ≠ 0x0700000000000000#64 ∧ w ≠ 0x0800000000000000#64) := by decide

theorem witness_DecodeOfEncode :
    (Instr.setSpeed (-2147483648)).wellFormed = true ∧ (Instr.new 255#8 0#8 255#8 255#8).wellFormed = true := by decide

theorem witness_EncodeOfDecode : decode 0x02000000FFFFFFFB#64 = .ok (.setSpeed (-5)) := by decide

theorem witness_CommandBytesAreLittleEndian :
    (7 < 8) ∧ decode 0x0800000000000000#64 = .ok .apply ∧
    decode 0x0900000000000000#64 = .error (.unassignedOpcode 0x09#8) := by decide

theorem witness_StepRunsTheDecodedCommand :
    (given (block (single 1) 0) [(0x0500000000000000#64, 7)]).host = [.command 0x0500000000000000#64 7#64] ∧
    decode 0x0500000000000000#64 = .ok .stepBwd := by decide

theorem witness_EveryStepCompletes : (block (single 1) 0).host = [] := by decide

/-- A step that reports its result bit. -/
theorem witness_OneResponsePerCommand :
    (given (block (single 1) 0) [(0x0400000000000000#64, 7)]).host = [.command 0x0400000000000000#64 7#64] ∧
    ∃ t, step (given (block (single 1) 0) [(0x0400000000000000#64, 7)]) = .next t ∧
      (t.obs.any fun o => o.resp.getLsbD 2) = true := by
  exact ⟨by decide, exists_next (by decide)⟩

/-- A response of each of the five values. -/
theorem witness_PossibleResponses :
    (∃ t, step (given (block (single 1) 0) [(0x0800000000000000#64, 7)]) = .next t ∧
      (t.obs.map Observation.resp == [0x00#8]) = true) ∧
    (∃ t, step (given (block (single 1) 0) [(0x0400000000000000#64, 7)]) = .next t ∧
      (t.obs.map Observation.resp == [0x04#8]) = true) ∧
    (∃ t, step (given (block (single 1) 0) [(0x0200000000000000#64, 7)]) = .next t ∧
      (t.obs.map Observation.resp == [0x01#8]) = true) ∧
    (∃ t, step (given (block (single 1) 0) [(0x0900000000000000#64, 7)]) = .next t ∧
      (t.obs.map Observation.resp == [0x02#8]) = true) ∧
    ∃ t, step (given fresh [(0x0800000000000000#64, 7)]) = .next t ∧
      (t.obs.map Observation.resp == [0x03#8]) = true := by
  exact ⟨exists_next (by decide), exists_next (by decide), exists_next (by decide), exists_next (by decide),
    exists_next (by decide)⟩

/-- The three tests of the priority, each deciding. -/
theorem witness_StatusPriority :
    (given fresh [(0x0200000000000000#64, 7)]).host = [.command 0x0200000000000000#64 7#64] ∧
    fresh.regs.configured = false ∧ decode 0x0200000000000000#64 = .ok (.setSpeed 0) ∧
    isNew (.setSpeed 0) = false ∧ isBadSpeed (.setSpeed 0) = true ∧ isBadSpeed (.setSpeed 1) = false := by decide

theorem witness_RejectedCommandHasNoEffect :
    (given fresh [(0x0600000000000000#64, 7)]).host = [.command 0x0600000000000000#64 7#64] ∧
    ∃ t, step (given fresh [(0x0600000000000000#64, 7)]) = .next t ∧
      (t.obs == fresh.obs ++ [⟨0x03#8, []⟩] && statusField ⟨0x03#8, []⟩ != 0#2) = true := by
  exact ⟨by decide, exists_next (by decide)⟩

/-- Each way to be illegal, at the end of its range, and a word that is none of them. -/
theorem witness_IllegalWordsAnswerIllegal :
    (given fresh [(0#64, 7)]).host = [.command 0#64 7#64] ∧
    opcodeField 0x00FFFFFFFFFFFFFF#64 = 0x00#8 ∧ 0x09#8 ≤ opcodeField 0x0900000000000000#64 ∧
    (opcodeField 0x0100000100000000#64 = 0x01#8 ∧ 0x0100000100000000#64 &&& 0x00FFFFFF00000000#64 ≠ 0#64) ∧
    (opcodeField 0x0280000000000000#64 = 0x02#8 ∧ 0x0280000000000000#64 &&& 0x00FFFFFF00000000#64 ≠ 0#64) ∧
    (opcodeField 0x0300000000000002#64 = 0x03#8 ∧ 0x0300000000000002#64 &&& 0x00FFFFFFFFFFFFFE#64 ≠ 0#64) ∧
    (0x04#8 ≤ opcodeField 0x0800000000000001#64 ∧ opcodeField 0x0800000000000001#64 ≤ 0x08#8 ∧
      0x0800000000000001#64 &&& 0x00FFFFFFFFFFFFFF#64 ≠ 0#64) ∧
    (opcodeField 0x0800000000000000#64 = 0x08#8 ∧ 0x0800000000000000#64 &&& 0x00FFFFFFFFFFFFFF#64 = 0#64) := by decide

theorem witness_UnconfiguredBlockRejects :
    fresh.regs.configured = false ∧ isNew .apply = false ∧ isNew (.setSpeed 0) = false := by decide

theorem witness_StepTakesOneInput :
    ∃ t, step (given fresh [(0#64, 7), (0#64, 8)]) = .next t ∧ (t.host == [.command 0#64 8#64]) = true :=
  exists_next (by decide)

/-- Every clause has a command that changes its registers. -/
theorem witness_RegisterWriters :
    (∃ t, step (given fresh [(0x01000000010B0A09#64, 7)]) = .next t ∧
      (t.regs.configured != fresh.regs.configured && t.regs.stepCount != fresh.regs.stepCount &&
        t.regs.pin3 != fresh.regs.pin3 && t.regs.position != fresh.regs.position) = true) ∧
    (∃ t, step (given (block { single 4 with speedControl := true } 0) [(0x0400000000000000#64, 40000)]) = .next t ∧
      (t.regs.position != 4#8 && t.regs.nextUpdate != 40000#64) = true) ∧
    (∃ t, step (given (block (single 4) 0) [(0x0600000000000000#64, 7)]) = .next t ∧
      (t.regs.running != true) = true) ∧
    (∃ t, step (given (block (single 4) 0) [(0x02000000000003E8#64, 7)]) = .next t ∧
      (t.regs.timeStep != 40000#64 && t.regs.nextUpdate != 40000#64) = true) ∧
    ∃ t, step (given (block (single 4) 0) [(0x0300000000000001#64, 7)]) = .next t ∧
      (t.regs.speedControl != false) = true := by
  exact ⟨exists_next (by decide), exists_next (by decide), exists_next (by decide), exists_next (by decide),
    exists_next (by decide)⟩

/-- The invariant of a configured block with no driven pin, from facts that evaluate. -/
theorem inv_of_undriven (s : State) (n : PatternName) (i : Nat) (hn : HoldsPattern s.params s.regs n)
    (hi : RingIndex s.regs i) (hl : s.sink.level = [])
    (h : paramsAdmissible s.params = true ∧ confined s.regs.stepCount.toNat s.regs.phase1 = true ∧
      confined s.regs.stepCount.toNat s.regs.phase2 = true ∧ confined s.regs.stepCount.toNat s.regs.phase3 = true ∧
      s.regs.timeStep.toNat ≤ 20000000 ∧ s.regs.nextUpdate.toNat < 2 ^ clockBits s.params.clkW ∧
      s.now.toNat < 2 ^ clockBits s.params.clkW ∧ s.sink.wf ∧ PinRegistered s.params s.sink s.regs.pin1 ∧
      PinRegistered s.params s.sink s.regs.pin2 ∧ PinRegistered s.params s.sink s.regs.pin3) : Inv s := by
  obtain ⟨a, b, c, d, e, f, g, j, k, l, m⟩ := h
  exact ⟨a, fun _ => ⟨n, hn⟩, fun _ => ⟨i, hi⟩, fun _ => ⟨b, c, d⟩, e, f, g, j, fun _ => ⟨k, l, m⟩,
    fun p hp => by simp [levelAt, hl, getLevel] at hp⟩

/-- The words presented are no part of the invariant. -/
theorem inv_given (s : State) (cmds : List (CmdWord × Nat)) (h : Inv s) : Inv (given s cmds) :=
  ⟨h.params, h.pattern, h.position, h.masks, h.timeStep, h.deadline, h.sample, h.canonical, h.pins, h.driven⟩

theorem inv_single (cmds : List (CmdWord × Nat)) : Inv (given (block (single 4) 0) cmds) :=
  inv_given _ cmds (inv_of_undriven _ .single 2 (by decide) (by decide) rfl (by decide))

theorem inv_overlap (cmds : List (CmdWord × Nat)) : Inv (given (block (overlap 32) 0) cmds) :=
  inv_given _ cmds (inv_of_undriven _ .overlap 5 (by decide) (by decide) rfl (by decide))

/-- A NEW and an APPLY, both with events. -/
theorem witness_PinEventSources :
    (Inv (given (block (single 4) 0) [(0x01000000000B0A09#64, 7)]) ∧
      ∃ t, step (given (block (single 4) 0) [(0x01000000000B0A09#64, 7)]) = .next t ∧
        (t.obs == [⟨0x00#8, [.config 9#8, .config 10#8, .config 11#8]⟩]) = true) ∧
    (Inv (given (block (single 4) 0) [(0x0800000000000000#64, 7)]) ∧
      ∃ t, step (given (block (single 4) 0) [(0x0800000000000000#64, 7)]) = .next t ∧
        (t.obs == [⟨0x00#8, writes .high .low .low⟩]) = true) ∧ pinValid params 9#8 = true := by
  exact ⟨⟨inv_single _, exists_next (by decide)⟩, ⟨inv_single _, exists_next (by decide)⟩, by decide⟩

theorem witness_PowerOnReset :
    { block (single 4) 7 with host := [.powerOnReset, .powerOnReset] }.host = .powerOnReset :: [.powerOnReset] := rfl

/-- One run that stays unconfigured and one that a NEW configures. -/
theorem witness_UnconfiguredRegistersAreUnobservable :
    fresh.regs.configured = false ∧ { single 4 with configured := false }.configured = false ∧
    (∃ t, runSteps 1 (given fresh [(0x0400000000000000#64, 7)]) = .next t ∧ (!t.regs.configured) = true) ∧
    ∃ t, runSteps 2 (given fresh [(0x0400000000000000#64, 7), (0x01000000000B0A09#64, 8)]) = .next t ∧
      t.regs.configured = true := by
  exact ⟨rfl, rfl, exists_next (by decide), exists_next (by decide)⟩

/-- Pins the PinSink accepts, and one it does not. -/
theorem witness_NewDrivesNoPin :
    (∃ t, exec (.new 9#8 10#8 200#8 0#8) (block (single 4) 0) = .next t ∧ t.sink.sinkFault = true) ∧
    pinValid params 200#8 = false ∧ pinValid params 9#8 = true :=
  ⟨exists_next (by decide), by decide, by decide⟩

theorem witness_PatternTableOfThisHardware :
    State.reset.params = hardwareParams ∧ (1#8 : BitVec 8) = 1#8 ∧ (0#8 : BitVec 8) ≠ 1#8 ∧ (255#8 : BitVec 8) ≠ 1#8 :=
  ⟨rfl, by decide⟩

theorem witness_FirstStepDrivesPositionTwo :
    ∃ t, exec (.new 9#8 10#8 11#8 1#8) fresh = .next t ∧ t.regs.configured = true := exists_next (by decide)

/-- Both step counts at the slowest speed and on both sides of the speed where the time step becomes 0. -/
theorem witness_TimeStepRange :
    (1 ≤ 1 ∧ (3 = 3 ∨ 3 = 6) ∧ timeStepOf 1 3 = 20000000) ∧
    (1 ≤ 20000001 ∧ timeStepOf 20000001 3 = 0 ∧ timeStepOf 20000000 3 = 1) ∧
    ((6 = 3 ∨ 6 = 6) ∧ timeStepOf 10000001 6 = 0 ∧ timeStepOf 10000000 6 = 1) := by decide

theorem witness_SetSpeedReanchors :
    fresh.regs.configured = false ∧
    (block (single 1) 0).regs.configured = true ∧ ((0 : Int) ≤ 0) ∧ ((0 : Int) < 1) := by decide

theorem witness_SetSpeedControlWritesTheFlag :
    fresh.regs.configured = false ∧ (block (single 1) 0).regs.configured = true := ⟨rfl, rfl⟩

/-- Both ends of the comparator's range. -/
theorem witness_ComparatorIsWraparoundSafe :
    (-(2 ^ (clockBits .w32 - 1)) ≤ (0 : Int) - 2147483648 ∧ (0 : Int) - 2147483648 < 2 ^ (clockBits .w32 - 1)) ∧
    (-(2 ^ (clockBits .w32 - 1)) ≤ (2147483647 : Int) - 0 ∧ (2147483647 : Int) - 0 < 2 ^ (clockBits .w32 - 1)) := by
  decide

/-- Speed control off; on and due; on and one microsecond early. -/
theorem witness_GateVerdict :
    (block (single 1) 0).regs.speedControl = false ∧
    (let s := block { single 1 with speedControl := true } 40000
     s.regs.speedControl = true ∧ due s.params.clkW s.now s.regs.nextUpdate = true) ∧
    (let s := block { single 1 with speedControl := true } 39999
     s.regs.speedControl = true ∧ due s.params.clkW s.now s.regs.nextUpdate = false) := by decide

/-- The longest time between two samples. -/
theorem witness_ElapsedTimeOfSamples : clockMonotone .w32 [7, 4294967302] = true := by decide

/-- Three calls at one clock value, 90000 late at a time step of 40000 (41_speed_gating.md R127). -/
theorem witness_LateCallsCatchUp :
    let s := given (block { single 1 with speedControl := true } 0)
      [(0x0400000000000000#64, 130000), (0x0500000000000000#64, 130000), (0x0400000000000000#64, 130000)]
    let dirs := [true, false, true]
    s.regs.configured = true ∧ s.regs.speedControl = true ∧ 0 < s.regs.timeStep.toNat ∧
    s.regs.nextUpdate.toNat < 2 ^ clockBits s.params.clkW ∧
    90000 + s.regs.timeStep.toNat < 2 ^ (clockBits s.params.clkW - 1) ∧
    130000#64 = sampleAt s.params.clkW (s.regs.nextUpdate.toNat + 90000) ∧
    s.host = dirs.map (fun f => HostInput.command (stepWord f) 130000#64) ++ [] ∧
    dirs.length = 90000 / s.regs.timeStep.toNat + 1 := by decide

/-- The calls of P2 after its NEW at clock 0. -/
theorem witness_GatedStepsKeepThePace :
    let calls := [(true, 39999), (true, 40000), (true, 130000), (true, 130001), (true, 130002), (false, 160000)]
    let s := given (block { single 1 with speedControl := true } 0) (calls.map fun c => (stepWord c.1, c.2))
    s.regs.configured = true ∧ s.regs.speedControl = true ∧ s.regs.timeStep.toNat ≤ 20000000 ∧
    s.regs.nextUpdate = sampleAt s.params.clkW (0 + s.regs.timeStep.toNat) ∧
    s.host = calls.map (fun c => HostInput.command (stepWord c.1) (sampleAt s.params.clkW c.2)) ++ [] ∧
    clockMonotone s.params.clkW (0 :: calls.map Prod.snd) = true ∧
    (∀ c ∈ calls, c.2 < 0 + s.regs.timeStep.toNat + 2 ^ (clockBits s.params.clkW - 1)) ∧
    calls.getLast? = some (false, 160000) ∧ 0 < s.regs.timeStep.toNat := by decide

/-- Both ends of the stall (P6, line 3). -/
theorem witness_ComparatorRangeStall :
    (let s := block { single 1 with speedControl := true } 0x80009C40
     isStep .stepFwd = true ∧ s.regs.configured = true ∧ s.regs.speedControl = true ∧
     2 ^ (clockBits s.params.clkW - 1) ≤ 0x80000000 ∧ 0x80000000 < 2 ^ clockBits s.params.clkW ∧
     s.now = sampleAt s.params.clkW (s.regs.nextUpdate.toNat + 0x80000000)) ∧
    (let s := block { single 1 with speedControl := true } 39999
     2 ^ (clockBits s.params.clkW - 1) ≤ 0xFFFFFFFF ∧ 0xFFFFFFFF < 2 ^ clockBits s.params.clkW ∧
     s.now = sampleAt s.params.clkW (s.regs.nextUpdate.toNat + 0xFFFFFFFF)) := by decide

/-- The last call that a zero time step makes due (V7). -/
theorem witness_ZeroTimeStepStepsOnEveryCall :
    let s := block { single 1 with speedControl := true, timeStep := 0#64, nextUpdate := 0#64 } 0x7FFFFFFF
    isStep .stepBwd = true ∧ s.regs.configured = true ∧ s.regs.speedControl = true ∧ s.regs.timeStep = 0#64 ∧
    s.regs.nextUpdate.toNat < 2 ^ clockBits s.params.clkW ∧ 0x7FFFFFFF < 2 ^ (clockBits s.params.clkW - 1) ∧
    s.now = sampleAt s.params.clkW (s.regs.nextUpdate.toNat + 0x7FFFFFFF) := by decide

/-- The last microsecond before the step that SET_SPEED 500 starts. -/
theorem witness_RepeatedSetSpeedStarves :
    let s := block { single 1 with speedControl := true } 5000
    isStep .stepFwd = true ∧ s.regs.configured = true ∧ s.regs.speedControl = true ∧
    (s.regs.stepCount = 3#3 ∨ s.regs.stepCount = 6#3) ∧ (0 : Int) < 500 ∧
    ∃ t, exec (.setSpeed 500) s = .next t ∧ (decide (39999 < t.regs.timeStep.toNat)) = true :=
  ⟨rfl, rfl, rfl, .inl rfl, by decide, exists_next (by decide)⟩

/-- One microsecond early; unconfigured; and both patterns at the top of the ring, ungated and gated at the deadline. -/
theorem witness_StepFwdGatesMovesAndDrives :
    (let s := block { single 4 with speedControl := true } 39999
     s.regs.configured = true ∧ s.regs.speedControl = true ∧ due s.params.clkW s.now s.regs.nextUpdate = false) ∧
    fresh.regs.configured = false ∧
    (let s := block (single 4) 0
     s.regs.configured = true ∧ (s.regs.stepCount = 3#3 ∨ s.regs.stepCount = 6#3) ∧ RingIndex s.regs 2 ∧
     (s.regs.speedControl = true → due s.params.clkW s.now s.regs.nextUpdate = true) ∧ s.regs.speedControl = false) ∧
    (let s := block { overlap 32 with speedControl := true } 20000
     s.regs.configured = true ∧ (s.regs.stepCount = 3#3 ∨ s.regs.stepCount = 6#3) ∧ RingIndex s.regs 5 ∧
     (s.regs.speedControl = true → due s.params.clkW s.now s.regs.nextUpdate = true) ∧
     s.regs.speedControl = true) := by decide

/-- One microsecond early; unconfigured; and both patterns at the bottom of the ring, ungated and gated at the deadline. -/
theorem witness_StepBwdGatesMovesAndDrives :
    (let s := block { single 1 with speedControl := true } 39999
     s.regs.configured = true ∧ s.regs.speedControl = true ∧ due s.params.clkW s.now s.regs.nextUpdate = false) ∧
    fresh.regs.configured = false ∧
    (let s := block (single 1) 0
     s.regs.configured = true ∧ (s.regs.stepCount = 3#3 ∨ s.regs.stepCount = 6#3) ∧ RingIndex s.regs 0 ∧
     (s.regs.speedControl = true → due s.params.clkW s.now s.regs.nextUpdate = true) ∧ s.regs.speedControl = false) ∧
    (let s := block { overlap 1 with speedControl := true } 20000
     s.regs.configured = true ∧ (s.regs.stepCount = 3#3 ∨ s.regs.stepCount = 6#3) ∧ RingIndex s.regs 0 ∧
     (s.regs.speedControl = true → due s.params.clkW s.now s.regs.nextUpdate = true) ∧
     s.regs.speedControl = true) := by decide

/-- Ungated, and gated at the deadline. -/
theorem witness_ReleasedStepMovesUnseen :
    (let s := block { single 2 with running := false } 0
     isStep .stepFwd = true ∧ s.regs.configured = true ∧ s.regs.running = false ∧
     (s.regs.speedControl = true → due s.params.clkW s.now s.regs.nextUpdate = true)) ∧
    (let s := block { single 2 with running := false, speedControl := true } 40000
     isStep .stepBwd = true ∧ s.regs.configured = true ∧ s.regs.running = false ∧ s.regs.speedControl = true ∧
     (s.regs.speedControl = true → due s.params.clkW s.now s.regs.nextUpdate = true)) := by decide

/-- Both rings at their last index, and the longest way that does not return. -/
theorem witness_RingCycle :
    ((3#3 : BitVec 3) = 3#3 ∨ (3#3 : BitVec 3) = 6#3) ∧ 2 < (3#3 : BitVec 3).toNat ∧
    ((6#3 : BitVec 3) = 3#3 ∨ (6#3 : BitVec 3) = 6#3) ∧ 5 < (6#3 : BitVec 3).toNat ∧ 0 < 5 ∧ 4 < 5 := by decide

theorem witness_StepThereAndBack :
    let s := block (overlap 32) 0
    s.regs.configured = true ∧ s.regs.speedControl = false ∧ (s.regs.stepCount = 3#3 ∨ s.regs.stepCount = 6#3) ∧
    RingIndex s.regs 5 := by decide

theorem witness_ApplyDrivesThePhase :
    fresh.regs.configured = false ∧
    (block { single 2 with running := false } 0).regs.configured = true ∧
    (block { single 2 with running := false } 0).regs.running = false ∧
    (block (single 2) 0).regs.configured = true ∧ (block (single 2) 0).regs.running = true := by decide

theorem witness_ReleaseDrivesAllLow :
    fresh.regs.configured = false ∧
    (block (single 2) 0).regs.configured = true ∧ pinValid params 11#8 = true := by decide

theorem witness_ResumeWritesNoPin :
    fresh.regs.configured = false ∧ (block { single 2 with running := false } 0).regs.configured = true := ⟨rfl, rfl⟩

/-- A block of each pattern. -/
theorem witness_SomePhaseIsAlwaysDriven :
    (Inv (given (block (single 4) 0) []) ∧ (single 4).configured = true ∧ params.maskOverlap = maskOverlapDefault ∧
      (single 4).stepCount = 3#3) ∧ Inv (given (block (overlap 32) 0) []) ∧ (overlap 32).configured = true :=
  ⟨⟨inv_single [], rfl, rfl, rfl⟩, inv_overlap [], rfl⟩

/-- All pins equal; two equal; all different. -/
theorem witness_SharedPinShowsTheLastPhase :
    let same (a b c : PinId) (r : Regs) : Prop := r.configured = true ∧ r.running = true ∧
      pinValid params a = true ∧ pinValid params b = true ∧ pinValid params c = true ∧
      r.pin1 = a ∧ r.pin2 = b ∧ r.pin3 = c
    same 7#8 7#8 7#8 { single 1 with pin1 := 7#8, pin2 := 7#8, pin3 := 7#8 } ∧
    (same 5#8 5#8 6#8 { single 4 with pin1 := 5#8, pin2 := 5#8, pin3 := 6#8 } ∧ (5#8 : PinId) ≠ 6#8) ∧
    (same 9#8 10#8 11#8 (single 4) ∧ (9#8 : PinId) ≠ 10#8 ∧ (9#8 : PinId) ≠ 11#8) := by decide

/-- A released block given a step, an APPLY and an illegal word. -/
theorem witness_ReleasedPinsHold :
    let s := given (block { single 2 with running := false } 0)
      [(0x0400000000000000#64, 7), (0x0800000000000000#64, 8), (0x0900000000000000#64, 9)]
    s.regs.running = false ∧
    (∀ x ∈ s.host, ∃ cmd now, x = .command cmd now ∧
      ∀ i, decode cmd = .ok i → isNew i = false ∧ i ≠ .release ∧ i ≠ .resume) ∧
    ∃ t, runSteps 3 s = .next t ∧ (t.regs.position == 4#8) = true := by
  have h4 : decode 0x0400000000000000#64 = .ok .stepFwd := by decide
  have h8 : decode 0x0800000000000000#64 = .ok .apply := by decide
  have h9 : decode 0x0900000000000000#64 = .error (.unassignedOpcode 0x09#8) := by decide
  refine ⟨rfl, ?_, exists_next (by decide)⟩
  intro x hx
  simp only [given, List.map_cons, List.map_nil, List.mem_cons, List.not_mem_nil, or_false] at hx
  rcases hx with rfl | rfl | rfl
  · exact ⟨_, _, rfl, fun i hi => by rw [h4] at hi; injection hi with hi; subst hi; decide⟩
  · exact ⟨_, _, rfl, fun i hi => by rw [h8] at hi; injection hi with hi; subst hi; decide⟩
  · exact ⟨_, _, rfl, fun i hi => by rw [h9] at hi; injection hi⟩

theorem witness_ResumeThenStepDrives :
    let s := block { overlap 32 with running := false, speedControl := true } 20000
    s.regs.configured = true ∧ (s.regs.stepCount = 3#3 ∨ s.regs.stepCount = 6#3) ∧ RingIndex s.regs 5 ∧
    (s.regs.speedControl = true → due s.params.clkW s.now s.regs.nextUpdate = true) ∧
    s.regs.pin1 ≠ s.regs.pin2 ∧ s.regs.pin1 ≠ s.regs.pin3 ∧ s.regs.pin2 ≠ s.regs.pin3 ∧
    pinValid s.params s.regs.pin1 = true ∧ pinValid s.params s.regs.pin2 = true ∧
    pinValid s.params s.regs.pin3 = true := by decide

theorem witness_LastWriteWins : pinValid params 9#8 = true := by decide

theorem witness_InvalidPinOnlySetsTheFault :
    pinValid params 200#8 = false ∧ { PinSink.reset with sinkFault := true }.sinkFault = true := by decide

theorem witness_BlockIgnoresThePinSink :
    ∃ t, runSteps 2 (given fresh [(0x01000000000B0A09#64, 7), (0x0800000000000000#64, 8)]) = .next t ∧
      (t.obs.length == 2) = true := exists_next (by decide)

theorem witness_PinSinkFollowsTheEvents :
    .powerOnReset ∉ (given fresh [(0x01000000000B0A09#64, 7), (0x0800000000000000#64, 8)]).host ∧
    ∃ t, runSteps 2 (given fresh [(0x01000000000B0A09#64, 7), (0x0800000000000000#64, 8)]) = .next t ∧
      (levelAt t.sink 11#8 == some .high) = true := ⟨by decide, exists_next (by decide)⟩

/-- A step, an APPLY and a RELEASE, and a step and an APPLY of a released block. -/
theorem witness_DrivingCommandsFrame :
    (isStep .stepBwd = true ∧ ∃ t, exec .stepBwd (block (single 4) 0) = .next t ∧ (t.regs.position == 2#8) = true) ∧
    (isStep .apply = false ∧ ∃ t, exec .apply (block (single 4) 0) = .next t ∧
      (levelAt t.sink 9#8 == some .high) = true) ∧
    (∃ t, exec .release (block (single 4) 0) = .next t ∧ (!t.regs.running) = true) ∧
    (Instr.apply ≠ .release ∧ (block { single 4 with running := false } 0).regs.running = false ∧
      ∃ t, exec .apply (block { single 4 with running := false } 0) = .next t ∧
        (t.obs == [⟨0x00#8, []⟩]) = true) := by
  exact ⟨⟨rfl, exists_next (by decide)⟩, ⟨rfl, exists_next (by decide)⟩, exists_next (by decide),
    by decide, rfl, exists_next (by decide)⟩

/-- Each of the three commands, writing. -/
theorem witness_SilentCommandsFrame :
    (isSetSpeed (.setSpeed 1000) = true ∧ ∃ t, exec (.setSpeed 1000) (block (single 4) 5000) = .next t ∧
      (t.regs.nextUpdate == 25000#64) = true) ∧
    (isSetSpeed (.setSpeedControl true) = false ∧ ∃ t, exec (.setSpeedControl true) (block (single 4) 0) = .next t ∧
      t.regs.speedControl = true) ∧
    (isSetSpeed .resume = false ∧ ∃ t, exec .resume (block { single 4 with running := false } 0) = .next t ∧
      t.regs.running = true) := by
  exact ⟨⟨rfl, exists_next (by decide)⟩, ⟨rfl, exists_next (by decide)⟩, rfl, exists_next (by decide)⟩

/-- A step with speed control off, and a command that is no step. -/
theorem witness_UngatedCommandsIgnoreTheClock :
    (isNew .stepFwd = false ∧ isSetSpeed .stepFwd = false ∧
      (isStep .stepFwd = true → (block (single 4) 0).regs.speedControl = false) ∧
      ∃ t, exec .stepFwd (block (single 4) 0) = .next t ∧ (t.regs.position == 1#8) = true) ∧
    (isNew .release = false ∧ isSetSpeed .release = false ∧
      (isStep .release = true → (block { single 4 with speedControl := true } 0).regs.speedControl = false) ∧
      ∃ t, exec .release (block { single 4 with speedControl := true } 0) = .next t ∧ (!t.regs.running) = true) := by
  exact ⟨⟨rfl, rfl, by decide, exists_next (by decide)⟩, rfl, rfl, by decide, exists_next (by decide)⟩

theorem witness_RepeatedCommandsAreIdempotent :
    isStep (.new 9#8 10#8 200#8 0#8) = false ∧
    ∃ t, exec (.new 9#8 10#8 200#8 0#8) fresh = .next t ∧
      nextIs (exec (.new 9#8 10#8 200#8 0#8) t) (fun u => u.sink.sinkFault) = true := by
  exact ⟨rfl, exists_next (p := fun t => nextIs (exec (.new 9#8 10#8 200#8 0#8) t) fun u => u.sink.sinkFault) (by decide)⟩

theorem witness_StepKeepsTheInvariant :
    Inv (given (block (single 4) 0) [(0x0400000000000000#64, 7)]) ∧
    ∃ t, step (given (block (single 4) 0) [(0x0400000000000000#64, 7)]) = .next t ∧
      (t.regs.position == 1#8) = true := ⟨inv_single _, exists_next (by decide)⟩

theorem witness_ReachableConfiguredStates :
    Inv (given (block (overlap 32) 0) [(0x0400000000000000#64, 7)]) ∧
    ∃ t, runSteps 1 (given (block (overlap 32) 0) [(0x0400000000000000#64, 7)]) = .next t ∧
      t.regs.configured = true := ⟨inv_overlap _, exists_next (by decide)⟩

end Sys2Proof.Tests
end

section
/-! What a step leaves of the model's ports and parameters (00_scope.md R11, 20_memory.md R52). -/

namespace Sys2Proof.Machine

/-- A command writes registers, the PinSink and the observation only. -/
theorem exec_params_host {i : Instr} {s t : State} (h : exec i s = .next t) :
    t.params = s.params ∧ t.host = s.host := by
  obtain ⟨_, _, ⟨hparams, _, hhost, _⟩, _, _⟩ := exec_answers i s t h
  exact ⟨hparams, hhost⟩

/-- Settles O14, by the input the step finds: none, a reset, or a command word that decodes or is rejected. -/
theorem stepTakesOneInput : Obligations.StepTakesOneInput := by
  unfold Obligations.StepTakesOneInput
  intro s t hstep
  cases hs : s.host with
  | nil =>
    rw [step_of_host_nil s hs] at hstep
    obtain rfl := next_inj hstep
    exact ⟨rfl, hs⟩
  | cons input rest =>
    cases input with
    | powerOnReset =>
      rw [step_of_host_reset s rest hs] at hstep
      obtain rfl := next_inj hstep
      simp
    | command cmd now =>
      rw [step_of_host_command s cmd now rest hs] at hstep
      cases hdec : decode cmd with
      | ok i =>
        simp only [hdec] at hstep
        simpa using exec_params_host hstep
      | error e =>
        simp only [hdec] at hstep
        obtain rfl := next_inj hstep
        simp

end Sys2Proof.Machine
end

section
/-! What a command and a step can do, as inversion: the ways of a command, the inputs of a step, the first step of a run. -/

namespace Sys2Proof.Machine

/-- The registers after a ring step taken (42_stepping.md R140, R142): the position moved, and the deadline moved on under
speed control only. -/
def movedRegs (ring : BitVec 3 → PosWord → PosWord) (s : State) : Regs :=
  { s.regs with
    position := ring s.regs.stepCount s.regs.position
    nextUpdate := if s.regs.speedControl = true
      then addW s.params.clkW s.regs.nextUpdate s.regs.timeStep else s.regs.nextUpdate }

/-- `Does s i t`: the ways in which command `i` takes `s` to `t`. `exec_does` ties it to `exec`. -/
inductive Does (s : State) : Instr → State → Prop
  /-- A rejected command only answers. -/
  | rejected (i : Instr) (st : Status) : isNew i = false → Does s i (raise st s)
  | constructed (p1 p2 p3 : PinId) (pt : BitVec 8) : Does s (.new p1 p2 p3 pt)
      (respond .ok false [.config p1, .config p2, .config p3] (newRegisters p1 p2 p3 pt s))
  | anchored (rpm : Int) : s.regs.configured = true → 0 < rpm →
      Does s (.setSpeed rpm) (respond .ok false [] (anchor rpm.toNat s))
  | flagged (en : Bool) : s.regs.configured = true →
      Does s (.setSpeedControl en) (respond .ok false [] (setSpeedControl en s))
  /-- A step at a closed gate. -/
  | held (i : Instr) : s.regs.configured = true → isStep i = true → Does s i (respond .ok false [] s)
  /-- A step at an open gate. -/
  | moved (i : Instr) (ring : BitVec 3 → PosWord → PosWord) : s.regs.configured = true → isStep i = true →
      ring = ringFwd ∨ ring = ringBwd →
      (s.regs.speedControl = true → due s.params.clkW s.now s.regs.nextUpdate = true) →
      Does s i (respond .ok true (applyEvents (movedRegs ring s)) { s with regs := movedRegs ring s })
  | released : s.regs.configured = true →
      Does s .release (respond .ok false (driveAllLowEvents s.regs) (setRunning false s))
  | resumed : s.regs.configured = true → Does s .resume (respond .ok false [] (setRunning true s))
  | applied : s.regs.configured = true → Does s .apply (respond .ok false (applyEvents s.regs) s)

/-- What a command does behind the check of R202, from what it does on a configured block. -/
theorem does_of_whenConfigured {i : Instr} {s t : State} {run : State → State} (hn : isNew i = false)
    (h : whenConfigured s run = .next t) (hrun : s.regs.configured = true → Does s i (run s)) : Does s i t := by
  rcases whenConfigured_cases s t run h with ⟨hc, rfl⟩ | ⟨-, rfl⟩
  · exact hrun hc
  · exact .rejected i _ hn

theorem does_stepRing {i : Instr} {s : State} {ring : BitVec 3 → PosWord → PosWord} (hi : isStep i = true)
    (hring : ring = ringFwd ∨ ring = ringBwd) (hc : s.regs.configured = true) : Does s i (stepRing ring s) := by
  rcases stepRing_regs_cases ring s with ⟨-, h⟩ | ⟨hgate, r, hr, h⟩
  · rw [h]; exact .held i hc hi
  · obtain rfl : r = movedRegs ring s := hr
    rw [h]; exact .moved i ring hc hi hring hgate

/-- A command that answers `t` takes one of the ways to it. -/
theorem exec_does {i : Instr} {s t : State} (h : exec i s = .next t) : Does s i t := by
  cases i with
  | new p1 p2 p3 pt => obtain rfl := next_inj h; exact .constructed p1 p2 p3 pt
  | setSpeed rpm =>
    simp only [exec, execSetSpeed] at h
    refine does_of_whenConfigured rfl h fun hc => ?_
    split
    · exact .rejected _ _ rfl
    · exact .anchored rpm hc (by omega)
  | setSpeedControl en =>
    simp only [exec, execSetSpeedControl] at h
    exact does_of_whenConfigured rfl h (.flagged en)
  | stepFwd => exact does_of_whenConfigured rfl h (does_stepRing rfl (.inl rfl))
  | stepBwd => exact does_of_whenConfigured rfl h (does_stepRing rfl (.inr rfl))
  | release =>
    simp only [exec, execRelease] at h
    exact does_of_whenConfigured rfl h .released
  | resume =>
    simp only [exec, execResume] at h
    exact does_of_whenConfigured rfl h .resumed
  | apply => exact does_of_whenConfigured rfl h .applied

theorem isNew_of_isStep {i : Instr} (h : isStep i = true) : isNew i = false := by
  rcases isStep_cases i h with rfl | rfl <;> rfl

/-- The one way of NEW. -/
theorem Does.constructs {s t : State} {i : Instr} (h : Does s i t) (hn : isNew i = true) :
    ∃ p1 p2 p3 pt, t = respond .ok false [.config p1, .config p2, .config p3] (newRegisters p1 p2 p3 pt s) := by
  cases h with
  | constructed p1 p2 p3 pt => exact ⟨p1, p2, p3, pt, rfl⟩
  | rejected _ _ hother => simp [hother] at hn
  | held _ _ hi => simp [isNew_of_isStep hi] at hn
  | moved _ _ _ hi => simp [isNew_of_isStep hi] at hn
  | _ => cases hn

/-- An unconfigured block rejects every command but NEW (60_exceptions.md R202). -/
theorem exec_of_unconfigured {i : Instr} {s : State} (hc : s.regs.configured = false) (hn : isNew i = false) :
    exec i s = .next (raise .unconfigured s) := by
  cases i with
  | new => cases hn
  | _ => simp only [exec, execSetSpeed, execSetSpeedControl, execStepFwd, execStepBwd, execRelease, execResume,
      execApply, whenConfigured_of_unconfigured s _ hc]

/-- What a step does with a command word: the command it decodes to, or ILLEGAL. -/
theorem step_command_cases {s t : State} {cmd : CmdWord} {now : ClockWord} {rest : List HostInput}
    (hs : s.host = .command cmd now :: rest) (h : step s = .next t) :
    (∃ i, decode cmd = .ok i ∧ exec i (beginTransaction now rest s) = .next t) ∨
    t = raise .illegal (beginTransaction now rest s) := by
  rw [step_of_host_command s cmd now rest hs] at h
  cases hd : decode cmd with
  | ok i => simp only [hd] at h; exact .inl ⟨i, rfl, h⟩
  | error e => simp only [hd] at h; exact .inr (next_inj h).symm

/-- The first step of a run that goes through, and the run after it. -/
theorem runSteps_succ_inv {n : Nat} {s t : State} (h : runSteps (n + 1) s = .next t) :
    ∃ u, step s = .next u ∧ runSteps n u = .next t := by
  cases hs : step s with
  | next u => exact ⟨u, rfl, runSteps_succ_next n s u hs ▸ h⟩
  | fault r => cases r
  | refused r => simp [runSteps, hs] at h

end Sys2Proof.Machine
end

section
/-! The registers of an unconfigured block are not observed (10_state.md R37, notes/assumptions/1.md): two states that
differ only in them stay so along every run. -/

namespace Sys2Proof.Machine

/-- `u` is `s`, but for the registers where both are unconfigured. -/
structure SameObservable (s u : State) : Prop where
  configured : u.regs.configured = s.regs.configured
  outside    : u = { s with regs := u.regs }
  inside     : s.regs.configured = true → u = s

theorem SameObservable.refl (s : State) : SameObservable s s := ⟨rfl, rfl, fun _ => rfl⟩

theorem SameObservable.of_unconfigured {s : State} {r : Regs} (hs : s.regs.configured = false)
    (hr : r.configured = false) : SameObservable s { s with regs := r } :=
  ⟨hr.trans hs.symm, rfl, fun h => by simp [hs] at h⟩

/-- Two related states are the same, or differ in the registers of an unconfigured block. -/
theorem SameObservable.cases {s u : State} (h : SameObservable s u) :
    u = s ∨ (s.regs.configured = false ∧ ∃ r : Regs, r.configured = false ∧ u = { s with regs := r }) := by
  cases hc : s.regs.configured with
  | true => exact .inl (h.inside hc)
  | false => exact .inr ⟨rfl, u.regs, h.configured.trans hc, h.outside⟩

/-- NEW reads no register (40_construction.md R104). -/
theorem newRegisters_of_regs (p1 p2 p3 : PinId) (pt : BitVec 8) (s : State) (r : Regs) :
    newRegisters p1 p2 p3 pt { s with regs := r } = newRegisters p1 p2 p3 pt s := rfl

/-- A command keeps the relation: NEW gives the same state, any other on an unconfigured block the same rejection. -/
theorem exec_sameObservable {i : Instr} {s t u : State} (hsu : SameObservable s u) (h : exec i s = .next t) :
    ∃ v, exec i u = .next v ∧ SameObservable t v := by
  rcases hsu.cases with rfl | ⟨hs, r, hr, rfl⟩
  · exact ⟨t, h, .refl t⟩
  · cases hn : isNew i with
    | true =>
      obtain ⟨p1, p2, p3, pt, rfl⟩ : ∃ p1 p2 p3 pt, i = .new p1 p2 p3 pt := by
        cases i with
        | new p1 p2 p3 pt => exact ⟨p1, p2, p3, pt, rfl⟩
        | _ => cases hn
      have hsame : exec (.new p1 p2 p3 pt) { s with regs := r } = exec (.new p1 p2 p3 pt) s := by
        simp only [exec, execNew, newRegisters_of_regs]
      exact ⟨t, hsame.trans h, .refl t⟩
    | false =>
      rw [exec_of_unconfigured hs hn] at h
      obtain rfl := next_inj h
      exact ⟨_, exec_of_unconfigured hr hn, .of_unconfigured hs hr⟩

theorem SameObservable.beginTransaction {s u : State} (h : SameObservable s u) (now : ClockWord)
    (rest : List HostInput) : SameObservable (beginTransaction now rest s) (beginTransaction now rest u) := by
  rcases h.cases with rfl | ⟨hs, r, hr, rfl⟩
  · exact .refl _
  · exact .of_unconfigured hs hr

theorem SameObservable.raise {s u : State} (h : SameObservable s u) (st : Status) :
    SameObservable (raise st s) (raise st u) := by
  rcases h.cases with rfl | ⟨hs, r, hr, rfl⟩
  · exact .refl _
  · exact .of_unconfigured hs hr

/-- A power-on reset writes every register, so it makes related states equal. -/
theorem SameObservable.powerOn {s u : State} (h : SameObservable s u) (rest : List HostInput) :
    SameObservable (powerOn rest s) (powerOn rest u) := by
  rw [h.outside]
  exact .refl _

/-- A step keeps the relation, whatever input both states find. -/
theorem step_sameObservable {s t u : State} (hsu : SameObservable s u) (h : step s = .next t) :
    ∃ v, step u = .next v ∧ SameObservable t v := by
  have hhost : u.host = s.host := by rw [hsu.outside]
  cases hs : s.host with
  | nil =>
    rw [step_of_host_nil s hs] at h
    obtain rfl := next_inj h
    exact ⟨u, step_of_host_nil u (hhost.trans hs), hsu⟩
  | cons input rest =>
    have hu := hhost.trans hs
    cases input with
    | powerOnReset =>
      rw [step_of_host_reset s rest hs] at h
      obtain rfl := next_inj h
      exact ⟨_, step_of_host_reset u rest hu, hsu.powerOn rest⟩
    | command cmd now =>
      have hbegin := hsu.beginTransaction now rest
      rw [step_of_host_command s cmd now rest hs] at h
      rw [step_of_host_command u cmd now rest hu]
      cases hd : decode cmd with
      | ok i =>
        simp only [hd] at h
        exact exec_sameObservable hbegin h
      | error e =>
        simp only [hd] at h
        obtain rfl := next_inj h
        exact ⟨_, rfl, hbegin.raise .illegal⟩

/-- A run keeps the relation. -/
theorem runSteps_sameObservable {n : Nat} {s t u : State} (hsu : SameObservable s u) (h : runSteps n s = .next t) :
    ∃ v, runSteps n u = .next v ∧ SameObservable t v := by
  induction n generalizing s u with
  | zero =>
    obtain rfl := next_inj h
    exact ⟨u, rfl, hsu⟩
  | succ n ih =>
    obtain ⟨s1, hs1, hrun⟩ := runSteps_succ_inv h
    obtain ⟨u1, hu1, hrel⟩ := step_sameObservable hsu hs1
    rw [runSteps_succ_next n u u1 hu1]
    exact ih hrel hrun

/-- Settles O18: the relation holds at the start and every run keeps it. -/
theorem unconfiguredRegistersAreUnobservable : Obligations.UnconfiguredRegistersAreUnobservable := by
  unfold Obligations.UnconfiguredRegistersAreUnobservable
  intro n s t r hs hr hrun
  obtain ⟨u, hu, hrel⟩ := runSteps_sameObservable (.of_unconfigured hs hr) hrun
  refine ⟨u, hu, ?_, ?_, ?_, hrel.configured, hrel.inside⟩ <;> rw [hrel.outside]

end Sys2Proof.Machine
end

section
/-! The write table of 10_state.md R35, one lemma per column, and the frames that follow from it. -/

namespace Sys2Proof.Machine

/-! ### Which command writes which register -/

/-- `configured`, the pattern and the pins are written by NEW only. -/
theorem Does.regs_frame {s t : State} {i : Instr} (h : Does s i t) (hn : isNew i = false) :
    t.regs = { s.regs with
      position := t.regs.position, running := t.regs.running, timeStep := t.regs.timeStep,
      nextUpdate := t.regs.nextUpdate, speedControl := t.regs.speedControl } := by
  cases h with
  | constructed => cases hn
  | _ => rfl

theorem Does.configured_written {s t : State} {i : Instr} (h : Does s i t)
    (hne : t.regs.configured ≠ s.regs.configured) : isNew i = true ∧ t.regs.configured = true := by
  cases h with
  | constructed => exact ⟨rfl, rfl⟩
  | _ => exact absurd rfl hne

theorem Does.position_written {s t : State} {i : Instr} (h : Does s i t)
    (hne : t.regs.position ≠ s.regs.position) :
    (isNew i = true ∧ t.regs.position = 1#8) ∨
      (isStep i = true ∧ (s.regs.speedControl = true → due s.params.clkW s.now s.regs.nextUpdate = true)) := by
  cases h with
  | constructed => exact .inl ⟨rfl, rfl⟩
  | moved _ _ _ hi _ hgate => exact .inr ⟨hi, hgate⟩
  | _ => exact absurd rfl hne

theorem Does.running_written {s t : State} {i : Instr} (h : Does s i t) (hne : t.regs.running ≠ s.regs.running) :
    (isNew i = true ∧ t.regs.running = true) ∨ (i = .release ∧ t.regs.running = false) ∨
      (i = .resume ∧ t.regs.running = true) := by
  cases h with
  | constructed => exact .inl ⟨rfl, rfl⟩
  | released => exact .inr (.inl ⟨rfl, rfl⟩)
  | resumed => exact .inr (.inr ⟨rfl, rfl⟩)
  | _ => exact absurd rfl hne

theorem Does.speedControl_written {s t : State} {i : Instr} (h : Does s i t)
    (hne : t.regs.speedControl ≠ s.regs.speedControl) :
    (isNew i = true ∧ t.regs.speedControl = false) ∨ i = .setSpeedControl t.regs.speedControl := by
  cases h with
  | constructed => exact .inl ⟨rfl, rfl⟩
  | flagged => exact .inr rfl
  | _ => exact absurd rfl hne

theorem Does.timeStep_written {s t : State} {i : Instr} (h : Does s i t)
    (hne : t.regs.timeStep ≠ s.regs.timeStep) : isNew i = true ∨ isSetSpeed i = true := by
  cases h with
  | constructed => exact .inl rfl
  | anchored => exact .inr rfl
  | _ => exact absurd rfl hne

theorem movedRegs_nextUpdate_of_ungated (ring : BitVec 3 → PosWord → PosWord) {s : State}
    (h : s.regs.speedControl = false) : (movedRegs ring s).nextUpdate = s.regs.nextUpdate := by
  simp [movedRegs, h]

theorem Does.nextUpdate_written {s t : State} {i : Instr} (h : Does s i t)
    (hne : t.regs.nextUpdate ≠ s.regs.nextUpdate) :
    isNew i = true ∨ isSetSpeed i = true ∨
      (isStep i = true ∧ s.regs.speedControl = true ∧ due s.params.clkW s.now s.regs.nextUpdate = true) := by
  cases h with
  | constructed => exact .inl rfl
  | anchored => exact .inr (.inl rfl)
  | moved _ ring _ hi _ hgate =>
    cases hsc : s.regs.speedControl with
    | true => exact .inr (.inr ⟨hi, rfl, hgate hsc⟩)
    | false => exact absurd (movedRegs_nextUpdate_of_ungated ring hsc) hne
  | _ => exact absurd rfl hne

/-- Settles O15, column by column: a word that decodes runs its command, any other leaves every register. -/
theorem registerWriters : Obligations.RegisterWriters := by
  unfold Obligations.RegisterWriters
  intro s t cmd now rest hs hstep
  rcases step_command_cases hs hstep with ⟨i, hdec, hexec⟩ | rfl
  · have h := exec_does hexec
    obtain ⟨_, _, ⟨-, hnow, -⟩, -⟩ := exec_answers i _ t hexec
    refine ⟨fun hne => ⟨i, hdec, h.configured_written hne⟩, fun hne => ⟨i, hdec, ?_⟩,
      fun hne => ⟨i, hdec, hnow ▸ h.position_written hne⟩, fun hne => ⟨i, hdec, h.running_written hne⟩,
      fun hne => ⟨i, hdec, h.speedControl_written hne⟩, fun hne => ⟨i, hdec, h.timeStep_written hne⟩,
      fun hne => ⟨i, hdec, hnow ▸ h.nextUpdate_written hne⟩⟩
    by_contra hn
    rw [h.regs_frame (by simpa using hn)] at hne
    simp at hne
  · simp

/-! ### Events -/

theorem mem_driveAllLowEvents {r : Regs} {e : PinEvent} (h : e ∈ driveAllLowEvents r) :
    ∃ p l, e = .write p l ∧ (p = r.pin1 ∨ p = r.pin2 ∨ p = r.pin3) := by
  simp only [driveAllLowEvents, List.mem_cons, List.not_mem_nil, or_false] at h
  rcases h with rfl | rfl | rfl <;> simp

/-- The events of a command other than NEW: writes to the block's own pins, from a step or an APPLY of a running block and
from RELEASE only (20_memory.md R55, R58). -/
theorem Does.events {s t : State} {i : Instr} (h : Does s i t) (hn : isNew i = false) :
    ∃ o, t.obs = s.obs ++ [o] ∧ t.sink = acceptEvents s.params s.sink o.pinEv ∧
      (∀ e ∈ o.pinEv, ∃ p l, e = .write p l ∧ (p = s.regs.pin1 ∨ p = s.regs.pin2 ∨ p = s.regs.pin3)) ∧
      (o.pinEv = [] ∨ s.regs.configured = true ∧
        (i = .release ∨ (isStep i = true ∨ i = .apply) ∧ s.regs.running = true)) := by
  have mux : ∀ r : Regs, applyEvents r = [] ∨ r.running = true := fun r => by
    cases hr : r.running with
    | true => exact .inr rfl
    | false => exact .inl (applyEvents_released r hr)
  cases h with
  | constructed => cases hn
  | moved _ ring hc hi =>
    exact ⟨_, rfl, rfl, mem_applyEvents _, (mux (movedRegs ring s)).imp_right fun hr => ⟨hc, .inr ⟨.inl hi, hr⟩⟩⟩
  | released hc => exact ⟨_, rfl, rfl, fun _ => mem_driveAllLowEvents, .inr ⟨hc, .inl rfl⟩⟩
  | applied hc =>
    exact ⟨_, rfl, rfl, mem_applyEvents _, (mux s.regs).imp_right fun hr => ⟨hc, .inr ⟨.inr rfl, hr⟩⟩⟩
  | _ => exact ⟨_, rfl, rfl, by simp, .inl rfl⟩

/-! ### Frames -/

/-- Settles O51: the registers by the write table, the pins by the events. -/
theorem drivingCommandsFrame : Obligations.DrivingCommandsFrame := by
  unfold Obligations.DrivingCommandsFrame
  intro s t i hi hexec
  have h := exec_does hexec
  obtain ⟨_, _, ⟨hparams, hnow, hhost, -⟩, -⟩ := exec_answers i s t hexec
  have hkind : isNew i = false ∧ isSetSpeed i = false ∧ i ≠ .resume ∧ ∀ en, i ≠ .setSpeedControl en := by
    rcases hi with hi | rfl | rfl
    · rcases isStep_cases i hi with rfl | rfl <;> simp [isNew, isSetSpeed]
    · simp [isNew, isSetSpeed]
    · simp [isNew, isSetSpeed]
  obtain ⟨hn, hsp, hres, hen⟩ := hkind
  obtain ⟨o, hobs, hsink, hwrites, hsource⟩ := h.events hn
  have htime : t.regs.timeStep = s.regs.timeStep := by
    by_contra hne
    simpa [hn, hsp] using h.timeStep_written hne
  have hctl : t.regs.speedControl = s.regs.speedControl := by
    by_contra hne
    simpa [hn, hen] using h.speedControl_written hne
  refine ⟨hparams, hnow, hhost, ?_, fun hst => ⟨?_, ?_⟩, fun hrel => ?_, fun p => ?_, fun p h1 h2 h3 => ?_,
    fun hrel hrun => ?_, o, hobs, fun hev => ?_⟩
  · have hframe := h.regs_frame hn
    rwa [htime, hctl] at hframe
  · by_contra hne
    simpa [hn, hst] using h.position_written hne
  · by_contra hne
    simpa [hn, hst, hsp] using h.nextUpdate_written hne
  · by_contra hne
    simpa [hn, hrel, hres] using h.running_written hne
  · rw [hsink]
    refine isOutputAt_acceptEvents_of_no_config _ p _ _ fun x hx => ?_
    obtain ⟨_, _, he, -⟩ := hwrites _ hx
    cases he
  · rw [hsink]
    refine levelAt_acceptEvents_of_no_write _ p _ _ fun l hl => ?_
    obtain ⟨_, _, he, hp⟩ := hwrites _ hl
    cases he
    simp [h1, h2, h3] at hp
  · have hnone : o.pinEv = [] := by simpa [hrel, hrun] using hsource
    rw [hsink, hnone, acceptEvents_nil]
  · rw [hsink, hev, acceptEvents_nil]

/-- Settles O52: the registers by the write table, and no event. -/
theorem silentCommandsFrame : Obligations.SilentCommandsFrame := by
  unfold Obligations.SilentCommandsFrame
  intro s t i hi hexec
  have h := exec_does hexec
  obtain ⟨_, _, ⟨hparams, hnow, hhost, -⟩, -⟩ := exec_answers i s t hexec
  have hkind : isNew i = false ∧ isStep i = false ∧ i ≠ .release ∧ i ≠ .apply := by
    rcases hi with hi | ⟨en, rfl⟩ | rfl
    · cases i with
      | setSpeed rpm => simp [isNew, isStep]
      | _ => cases hi
    · simp [isNew, isStep]
    · simp [isNew, isStep]
  obtain ⟨hn, hst, hrel, happ⟩ := hkind
  obtain ⟨o, hobs, hsink, -, hsource⟩ := h.events hn
  have hnone : o.pinEv = [] := by simpa [hrel, hst, happ] using hsource
  have hpos : t.regs.position = s.regs.position := by
    by_contra hne
    simpa [hn, hst] using h.position_written hne
  refine ⟨hparams, hnow, hhost, ?_, ?_, fun hsp => ⟨?_, ?_⟩, fun hen => ?_, fun hres => ?_, o, hobs, hnone⟩
  · rw [hsink, hnone, acceptEvents_nil]
  · have hframe := h.regs_frame hn
    rwa [hpos] at hframe
  · by_contra hne
    simpa [hn, hsp] using h.timeStep_written hne
  · by_contra hne
    simpa [hn, hst, hsp] using h.nextUpdate_written hne
  · by_contra hne
    simpa [hn, hen] using h.speedControl_written hne
  · by_contra hne
    simpa [hn, hres, hrel] using h.running_written hne

end Sys2Proof.Machine
end

section
/-! The invariant (10_state.md R38, 20_memory.md R58): its register clauses, its PinSink clauses, then every step and
every run. -/

namespace Sys2Proof.Machine

/-! ### The registers -/

/-- The clauses of `Inv` that speak of the registers alone. -/
structure LegalRegs (q : Params) (r : Regs) : Prop where
  pattern  : r.configured = true → ∃ n, HoldsPattern q r n
  position : r.configured = true → ∃ i, RingIndex r i
  masks    : r.configured = true → confined r.stepCount.toNat r.phase1 = true ∧
    confined r.stepCount.toNat r.phase2 = true ∧ confined r.stepCount.toNat r.phase3 = true
  timeStep : r.timeStep.toNat ≤ 20000000
  deadline : r.nextUpdate.toNat < 2 ^ clockBits q.clkW

theorem legalRegs_of_inv {s : State} (h : Inv s) : LegalRegs s.params s.regs :=
  ⟨h.pattern, h.position, h.masks, h.timeStep, h.deadline⟩

theorem patternOf_stepCount (q : Params) (n : PatternName) :
    (patternOf q n).stepCount = 3#3 ∨ (patternOf q n).stepCount = 6#3 := by
  cases n with
  | single => exact .inl rfl
  | overlap => exact .inr rfl

/-- Admissible parameters make every pattern's masks fit its ring (40_construction.md R101). -/
theorem patternOf_masksConfined {q : Params} (hq : paramsAdmissible q = true) (n : PatternName) :
    masksConfined (patternOf q n).stepCount.toNat (patternOf q n).masks = true := by
  cases n with
  | single =>
    show masksConfined stepCountSingle.toNat maskSingle = true
    decide
  | overlap => exact (Bool.and_eq_true_iff.mp hq).1

theorem LegalRegs.stepCount {q : Params} {r : Regs} (h : LegalRegs q r) (hc : r.configured = true) :
    r.stepCount = 3#3 ∨ r.stepCount = 6#3 := by
  obtain ⟨n, hn, -⟩ := h.pattern hc
  rw [hn]
  exact patternOf_stepCount q n

/-- The bound of 41_speed_gating.md R121. -/
theorem wrap_timeStepOf_le (w : ClkWidth) (rpm : Nat) {sc : BitVec 3} (hsc : sc = 3#3 ∨ sc = 6#3) :
    (wrap w (timeStepOf rpm sc.toNat : Nat)).toNat ≤ 20000000 := by
  rw [wrap_timeStepOf_toNat]
  have hdiv : 60000000 / rpm ≤ 60000000 := Nat.div_le_self _ _
  rcases hsc with rfl | rfl
  · show 60000000 / rpm / 3 ≤ 20000000
    omega
  · show 60000000 / rpm / 6 ≤ 20000000
    omega

theorem addW_lt (w : ClkWidth) (a b : ClockWord) : (addW w a b).toNat < 2 ^ clockBits w := wrap_lt w _

/-- Both ring functions move from ring index to ring index (42_stepping.md R144). -/
theorem ring_index {ring : BitVec 3 → PosWord → PosWord} {sc : BitVec 3} {i : Nat}
    (hring : ring = ringFwd ∨ ring = ringBwd) (hsc : sc = 3#3 ∨ sc = 6#3) (hi : i < sc.toNat) :
    ∃ j, j < sc.toNat ∧ ring sc (BitVec.ofNat 8 (1 <<< i)) = BitVec.ofNat 8 (1 <<< j) := by
  rcases hring with rfl | rfl
  · exact ⟨_, Nat.mod_lt _ (by omega), ringFwd_index sc i hsc hi⟩
  · exact ⟨_, Nat.mod_lt _ (by omega), ringBwd_index sc i hsc hi⟩

theorem LegalRegs.movedRegs {s : State} (h : LegalRegs s.params s.regs) (hc : s.regs.configured = true)
    {ring : BitVec 3 → PosWord → PosWord} (hring : ring = ringFwd ∨ ring = ringBwd) :
    LegalRegs s.params (movedRegs ring s) where
  pattern := h.pattern
  position _ := by
    obtain ⟨i, hi, hpos⟩ := h.position hc
    obtain ⟨j, hj, hstep⟩ := ring_index hring (h.stepCount hc) hi
    exact ⟨j, hj, (congrArg (ring s.regs.stepCount) hpos).trans hstep⟩
  masks := h.masks
  timeStep := h.timeStep
  deadline := by
    show (if _ then _ else _ : ClockWord).toNat < _
    split
    · exact addW_lt _ _ _
    · exact h.deadline

theorem LegalRegs.anchor {s : State} (h : LegalRegs s.params s.regs) (hc : s.regs.configured = true) (rpm : Nat) :
    LegalRegs s.params (anchor rpm s).regs where
  pattern := h.pattern
  position := h.position
  masks := h.masks
  timeStep := wrap_timeStepOf_le _ _ (h.stepCount hc)
  deadline := addW_lt _ _ _

theorem legalRegs_newRegisters {s : State} (hq : paramsAdmissible s.params = true) (p1 p2 p3 : PinId) (pt : BitVec 8) :
    LegalRegs s.params (newRegisters p1 p2 p3 pt s).regs := by
  have hsc := patternOf_stepCount s.params (selectPattern s.params pt)
  have hmasks := patternOf_masksConfined hq (selectPattern s.params pt)
  rw [masksConfined, Bool.and_eq_true_iff, Bool.and_eq_true_iff] at hmasks
  obtain ⟨⟨h1, h2⟩, h3⟩ := hmasks
  exact
    { pattern := fun _ => ⟨selectPattern s.params pt, rfl, rfl, rfl, rfl⟩
      position := fun _ => ⟨0, by rw [newRegisters_regs]; rcases hsc with h | h <;> simp [h], rfl⟩
      masks := fun _ => ⟨h1, h2, h3⟩
      timeStep := wrap_timeStepOf_le _ _ hsc
      deadline := addW_lt _ _ _ }

/-- Every command keeps the register clauses. -/
theorem Does.legalRegs {s t : State} {i : Instr} (h : Does s i t) (hq : paramsAdmissible s.params = true)
    (hs : LegalRegs s.params s.regs) : LegalRegs s.params t.regs := by
  cases h with
  | constructed p1 p2 p3 pt => exact legalRegs_newRegisters hq p1 p2 p3 pt
  | anchored rpm hc => exact hs.anchor hc _
  | moved _ ring hc _ hring => exact hs.movedRegs hc hring
  | _ => exact { hs with }

/-! ### The PinSink -/

/-- The PinSink drives outputs only (20_memory.md R58). -/
abbrev DrivesOutputsOnly (k : PinSink) : Prop := ∀ p, levelAt k p ≠ none → isOutputAt k p = true

theorem isOutputAt_acceptEvent_of_isOutputAt (q : Params) {k : PinSink} (e : PinEvent) {p : PinId}
    (h : isOutputAt k p = true) : isOutputAt (acceptEvent q k e) p = true := by
  rw [isOutputAt_acceptEvent]
  cases e with
  | config x => simp [h]
  | write x l => exact h

/-- No event takes back a registration or the record of a fault. -/
theorem pinRegistered_acceptEvent {q : Params} {k : PinSink} {p : PinId} (e : PinEvent) (h : PinRegistered q k p) :
    PinRegistered q (acceptEvent q k e) p := by
  unfold PinRegistered at h ⊢
  cases hv : pinValid q p with
  | true =>
    rw [hv, if_pos rfl] at h
    rw [if_pos rfl]
    exact isOutputAt_acceptEvent_of_isOutputAt q e h
  | false =>
    rw [hv, if_neg (by simp)] at h
    rw [if_neg (by simp), sinkFault_acceptEvent, h]
    cases e <;> rfl

theorem pinRegistered_acceptEvents {q : Params} {k : PinSink} {p : PinId} (evs : List PinEvent)
    (h : PinRegistered q k p) : PinRegistered q (acceptEvents q k evs) p := by
  induction evs generalizing k with
  | nil => exact h
  | cons e evs ih => exact ih (pinRegistered_acceptEvent e h)

/-- A PinConfig registers its pin, whatever else is emitted. -/
theorem pinRegistered_of_config_mem (q : Params) (k : PinSink) {p : PinId} {evs : List PinEvent}
    (h : .config p ∈ evs) : PinRegistered q (acceptEvents q k evs) p := by
  obtain ⟨before, after, rfl⟩ := List.append_of_mem h
  rw [acceptEvents_append, acceptEvents_cons]
  refine pinRegistered_acceptEvents after ?_
  unfold PinRegistered
  split
  · simp [isOutputAt_acceptEvent, *]
  · simp [sinkFault_acceptEvent, *]

theorem drivesOutputsOnly_acceptEvent {q : Params} {k : PinSink} {e : PinEvent} (h : DrivesOutputsOnly k)
    (he : ∀ p l, e = .write p l → PinRegistered q k p) : DrivesOutputsOnly (acceptEvent q k e) := by
  intro p hp
  refine isOutputAt_acceptEvent_of_isOutputAt q e ?_
  rw [levelAt_acceptEvent] at hp
  cases e with
  | config x => exact h p hp
  | write x l =>
    by_cases hx : pinValid q x = true ∧ p = x
    · obtain ⟨hvalid, rfl⟩ := hx
      simpa [PinRegistered, hvalid] using he p l rfl
    · simp only [if_neg hx] at hp
      exact h p hp

/-- Events that write to registered pins only leave a PinSink that drives outputs only. -/
theorem drivesOutputsOnly_acceptEvents {q : Params} {k : PinSink} {evs : List PinEvent} (h : DrivesOutputsOnly k)
    (hevs : ∀ p l, .write p l ∈ evs → PinRegistered q k p) : DrivesOutputsOnly (acceptEvents q k evs) := by
  induction evs generalizing k with
  | nil => exact h
  | cons e evs ih =>
    exact ih (drivesOutputsOnly_acceptEvent h fun p l he => hevs p l (he ▸ List.mem_cons_self))
      fun p l hp => pinRegistered_acceptEvent e (hevs p l (List.mem_cons_of_mem _ hp))

/-! ### Commands, steps, runs -/

/-- The pins of a block are registered once its command is done: by the PinConfigs of NEW, else since before. -/
theorem Does.pins_registered {s t : State} {i : Instr} (h : Does s i t) (hs : Inv s) (hc : t.regs.configured = true) :
    PinRegistered s.params t.sink t.regs.pin1 ∧ PinRegistered s.params t.sink t.regs.pin2 ∧
      PinRegistered s.params t.sink t.regs.pin3 := by
  cases hn : isNew i with
  | true =>
    obtain ⟨p1, p2, p3, pt, rfl⟩ := h.constructs hn
    exact ⟨pinRegistered_of_config_mem _ _ (by simp [newRegisters_regs]),
      pinRegistered_of_config_mem _ _ (by simp [newRegisters_regs]),
      pinRegistered_of_config_mem _ _ (by simp [newRegisters_regs])⟩
  | false =>
    obtain ⟨o, -, hsink, -⟩ := h.events hn
    have hframe := h.regs_frame hn
    rw [hframe] at hc ⊢
    rw [hsink]
    obtain ⟨h1, h2, h3⟩ := hs.pins hc
    exact ⟨pinRegistered_acceptEvents _ h1, pinRegistered_acceptEvents _ h2, pinRegistered_acceptEvents _ h3⟩

/-- The PinSink drives outputs only once a command is done: NEW drives nothing, the others drive the block's pins. -/
theorem Does.drivesOutputsOnly {s t : State} {i : Instr} (h : Does s i t) (hs : Inv s) : DrivesOutputsOnly t.sink := by
  cases hn : isNew i with
  | true =>
    obtain ⟨p1, p2, p3, pt, rfl⟩ := h.constructs hn
    exact drivesOutputsOnly_acceptEvents hs.driven (by simp)
  | false =>
    obtain ⟨o, -, hsink, hwrites, hsource⟩ := h.events hn
    rw [hsink]
    refine drivesOutputsOnly_acceptEvents hs.driven fun p l hp => ?_
    have hc : s.regs.configured = true := by
      rcases hsource with hnone | ⟨hc, -⟩
      · simp [hnone] at hp
      · exact hc
    obtain ⟨h1, h2, h3⟩ := hs.pins hc
    obtain ⟨_, _, he, hpin⟩ := hwrites _ hp
    cases he
    rcases hpin with rfl | rfl | rfl
    · exact h1
    · exact h2
    · exact h3

/-- Every command keeps the invariant. -/
theorem exec_inv {i : Instr} {s t : State} (hs : Inv s) (hexec : exec i s = .next t) : Inv t := by
  have h := exec_does hexec
  obtain ⟨_, _, ⟨hparams, hnow, -, evs, -, hsink, -⟩, -⟩ := exec_answers i s t hexec
  have hregs := h.legalRegs hs.params (legalRegs_of_inv hs)
  have hpins := h.pins_registered hs
  rw [← hparams] at hregs hpins
  exact
    { params := hparams ▸ hs.params
      pattern := hregs.pattern
      position := hregs.position
      masks := hregs.masks
      timeStep := hregs.timeStep
      deadline := hregs.deadline
      sample := by rw [hnow, hparams]; exact hs.sample
      canonical := hsink ▸ acceptEvents_wf _ _ _ hs.canonical
      pins := hpins
      driven := h.drivesOutputsOnly hs }

theorem beginTransaction_inv {s : State} (h : Inv s) (now : ClockWord) (rest : List HostInput) :
    Inv (beginTransaction now rest s) := { h with sample := wrap_lt _ _ }

theorem raise_inv {s : State} (h : Inv s) (st : Status) : Inv (raise st s) := { h with }

theorem powerOn_inv {s : State} (h : Inv s) (rest : List HostInput) : Inv (powerOn rest s) where
  params := h.params
  pattern := nofun
  position := nofun
  masks := nofun
  timeStep := by simp [Regs.reset]
  deadline := by simp [Regs.reset]
  sample := h.sample
  canonical := PinSink.reset_wf
  pins := nofun
  driven p hp := by simp at hp

/-- Settles O55, by the input the step finds. -/
theorem stepKeepsTheInvariant : Obligations.StepKeepsTheInvariant := by
  unfold Obligations.StepKeepsTheInvariant
  intro s t hinv h
  cases hs : s.host with
  | nil =>
    rw [step_of_host_nil s hs] at h
    obtain rfl := next_inj h
    exact hinv
  | cons input rest =>
    cases input with
    | powerOnReset =>
      rw [step_of_host_reset s rest hs] at h
      obtain rfl := next_inj h
      exact powerOn_inv hinv rest
    | command cmd now =>
      have hbegin := beginTransaction_inv hinv now rest
      rcases step_command_cases hs h with ⟨i, -, hexec⟩ | rfl
      · exact exec_inv hbegin hexec
      · exact raise_inv hbegin _

theorem runSteps_inv {n : Nat} {s t : State} (hs : Inv s) (h : runSteps n s = .next t) : Inv t := by
  induction n generalizing s with
  | zero =>
    obtain rfl := next_inj h
    exact hs
  | succ n ih =>
    obtain ⟨u, hstep, hrun⟩ := runSteps_succ_inv h
    exact ih (stepKeepsTheInvariant s u hs hstep) hrun

/-- Settles O57: the invariant holds at the end of the run and has these clauses. -/
theorem reachableConfiguredStates : Obligations.ReachableConfiguredStates := by
  unfold Obligations.ReachableConfiguredStates
  intro n s t hs hrun hc
  have ht := runSteps_inv hs hrun
  obtain ⟨h1, h2, h3⟩ := ht.masks hc
  exact ⟨(legalRegs_of_inv ht).stepCount hc, ht.position hc, eq_of_beq h1, eq_of_beq h2, eq_of_beq h3, ht.timeStep⟩

end Sys2Proof.Machine
end

section
/-! Words, bytes and clock samples as the host moves them (20_memory.md R61, R62). -/

namespace Sys2Proof.Machine

/-- A word is the word of its bytes. -/
theorem wordOfBytes_cmdBytes (w : CmdWord) :
    wordOfBytes (w.extractLsb' 0 8) (w.extractLsb' 8 8) (w.extractLsb' 16 8) (w.extractLsb' 24 8)
      (w.extractLsb' 32 8) (w.extractLsb' 40 8) (w.extractLsb' 48 8) (w.extractLsb' 56 8) = w := by
  apply BitVec.eq_of_getLsbD_eq
  intro k hk
  simp only [wordOfBytes, BitVec.getLsbD_append, BitVec.getLsbD_extractLsb']
  interval_cases k <;> rfl

/-- Decoding a word's bytes is decoding the word, with the bytes after it left over. -/
theorem decodeBytes_cmdBytes_append (w : CmdWord) (rest : List CmdByte) :
    decodeBytes (cmdBytes w ++ rest) = (decode w).map fun i => (i, rest) := by
  simp only [cmdBytes, List.cons_append, List.nil_append, decodeBytes, wordOfBytes_cmdBytes]
  cases decode w <;> rfl

/-- Settles O5: the bytes by their list, their decoding by the word they make. -/
theorem commandBytesAreLittleEndian : Obligations.CommandBytesAreLittleEndian := by
  unfold Obligations.CommandBytesAreLittleEndian
  intro w rest
  refine ⟨fun k hk => ?_, rfl, fun i hi => ?_, fun e he => ?_⟩
  · interval_cases k <;> rfl
  · rw [decodeBytes_cmdBytes_append, hi]; rfl
  · rw [decodeBytes_cmdBytes_append, he]; rfl

/-- The sample of a presented clock value as a natural number. -/
theorem wrap_natCast (w : ClkWidth) (n : Nat) : wrap w n = BitVec.ofNat 64 (n % 2 ^ clockBits w) := by
  rw [wrap, ← BitVec.ofInt_natCast]
  push_cast
  rfl

/-- Settles O6: a presented command runs from the start of its transaction. -/
theorem stepRunsTheDecodedCommand : Obligations.StepRunsTheDecodedCommand := by
  unfold Obligations.StepRunsTheDecodedCommand
  intro s cmd now rest i hs hdec
  rw [step_of_host_command s cmd now rest hs, hdec, ← wrap_natCast]
  rfl

/-- Settles O7, by the input the step finds. -/
theorem everyStepCompletes : Obligations.EveryStepCompletes := by
  unfold Obligations.EveryStepCompletes
  intro s
  refine ⟨?_, step_of_host_nil s⟩
  cases hs : s.host with
  | nil => exact ⟨_, step_of_host_nil s hs⟩
  | cons input rest =>
    cases input with
    | powerOnReset => exact ⟨_, step_of_host_reset s rest hs⟩
    | command cmd now =>
      rw [step_of_host_command s cmd now rest hs]
      cases decode cmd with
      | ok i => exact exec_next i _
      | error e => exact ⟨_, rfl⟩

/-- The wrapped difference of two samples is their true difference modulo the clock's range. -/
theorem subW_sampleAt (w : ClkWidth) (a b : Nat) :
    ((subW w (sampleAt w b) (sampleAt w a)).toNat : Int) = ((b : Int) - a) % 2 ^ clockBits w := by
  rw [subW_toNat, wrap_toNat, wrap_toNat, ← Int.sub_emod]

/-- Settles O28: the true difference lies within the clock's range. -/
theorem elapsedTimeOfSamples : Obligations.ElapsedTimeOfSamples := by
  unfold Obligations.ElapsedTimeOfSamples
  intro w a b hmono
  have hsub := subW_sampleAt w a b
  simp only [clockMonotone, Bool.and_true, Bool.and_eq_true, decide_eq_true_eq] at hmono
  obtain ⟨hle, hlt⟩ := hmono
  rw [← Nat.cast_sub hle] at hsub
  exact_mod_cast hsub.trans (Int.emod_eq_of_lt (by positivity) (by exact_mod_cast hlt))

end Sys2Proof.Machine
end

section
/-! Rows of pin events at the PinSink (20_memory.md R56, R57), as readings: the last write, the registration, the fault. -/

namespace Sys2Proof.Machine

theorem acceptEvents_singleton (q : Params) (k : PinSink) (e : PinEvent) : acceptEvents q k [e] = acceptEvent q k e := rfl

theorem lastWrite_append_write (p x : PinId) (l : Level) (evs : List PinEvent) :
    lastWrite p (evs ++ [.write x l]) = if x = p then some l else lastWrite p evs := by simp [lastWrite]

theorem lastWrite_append_config (p x : PinId) (evs : List PinEvent) :
    lastWrite p (evs ++ [.config x]) = lastWrite p evs := by simp [lastWrite]

/-- The level of an accepted pin after a row of events, by the last event of the row. -/
theorem levelAt_acceptEvents_of_pinValid {q : Params} {p : PinId} (hp : pinValid q p = true) (k : PinSink)
    (evs : List PinEvent) : levelAt (acceptEvents q k evs) p = (lastWrite p evs).or (levelAt k p) := by
  induction evs using List.reverseRecOn with
  | nil => rfl
  | append_singleton evs e ih =>
    rw [acceptEvents_append, acceptEvents_singleton, levelAt_acceptEvent]
    cases e with
    | config x => rw [lastWrite_append_config, ← ih]
    | write x l =>
      rw [lastWrite_append_write]
      by_cases hx : x = p
      · subst hx; simp [hp]
      · simp [hx, Ne.symm hx, ih]

/-- An accepted pin is an output after a row of events exactly if it was one or the row configures it. -/
theorem isOutputAt_acceptEvents_of_pinValid {q : Params} {p : PinId} (hp : pinValid q p = true) (k : PinSink)
    (evs : List PinEvent) :
    isOutputAt (acceptEvents q k evs) p = true ↔ isOutputAt k p = true ∨ .config p ∈ evs := by
  induction evs generalizing k with
  | nil => simp
  | cons e evs ih =>
    rw [acceptEvents_cons, ih, isOutputAt_acceptEvent]
    cases e with
    | config x =>
      by_cases hx : p = x
      · subst hx; simp [hp]
      · simp [hx]
    | write x l => simp

/-- No event writes the level of a pin that the PinSink does not accept. -/
theorem levelAt_acceptEvents_of_not_pinValid {q : Params} {p : PinId} (hp : pinValid q p = false) (k : PinSink)
    (evs : List PinEvent) : levelAt (acceptEvents q k evs) p = levelAt k p := by
  induction evs generalizing k with
  | nil => rfl
  | cons e evs ih =>
    rw [acceptEvents_cons, ih, levelAt_acceptEvent]
    cases e with
    | config x => rfl
    | write x l => exact if_neg fun ⟨hx, hpx⟩ => by simp [← hpx, hp] at hx

/-- No event registers a pin that the PinSink does not accept. -/
theorem isOutputAt_acceptEvents_of_not_pinValid {q : Params} {p : PinId} (hp : pinValid q p = false) (k : PinSink)
    (evs : List PinEvent) : isOutputAt (acceptEvents q k evs) p = isOutputAt k p := by
  induction evs generalizing k with
  | nil => rfl
  | cons e evs ih =>
    rw [acceptEvents_cons, ih, isOutputAt_acceptEvent]
    cases e with
    | config x =>
      by_cases hx : p = x
      · subst hx; simp [hp]
      · simp [hx]
    | write x l => rfl

/-- `sink_fault` after a row of events: it was set, or one of the events is to a pin that is not accepted. -/
theorem sinkFault_acceptEvents (q : Params) (k : PinSink) (evs : List PinEvent) :
    (acceptEvents q k evs).sinkFault = (k.sinkFault || (acceptEvents q PinSink.reset evs).sinkFault) := by
  induction evs using List.reverseRecOn with
  | nil => exact (Bool.or_false _).symm
  | append_singleton evs e ih =>
    simp only [acceptEvents_append, acceptEvents_singleton, sinkFault_acceptEvent, ih]
    cases e <;> exact Bool.or_assoc _ _ _

/-- Settles O47, from the two readings of an accepted pin. -/
theorem lastWriteWins : Obligations.LastWriteWins := by
  unfold Obligations.LastWriteWins
  intro q k evs p hp
  exact ⟨levelAt_acceptEvents_of_pinValid hp k evs, isOutputAt_acceptEvents_of_pinValid hp k evs⟩

/-- Settles O48, from the two readings of a pin that is not accepted. -/
theorem invalidPinOnlySetsTheFault : Obligations.InvalidPinOnlySetsTheFault := by
  unfold Obligations.InvalidPinOnlySetsTheFault
  intro q k evs p hp
  refine ⟨levelAt_acceptEvents_of_not_pinValid hp k evs, isOutputAt_acceptEvents_of_not_pinValid hp k evs,
    fun hk => ?_, fun l => ?_, ?_⟩
  · rw [sinkFault_acceptEvents, hk, Bool.true_or]
  · rw [acceptEvents_singleton, acceptEvent_write, hp]; rfl
  · rw [acceptEvents_singleton, acceptEvent_config, hp]; rfl

/-- A row of events given twice leaves every reading as once (20_memory.md R64). -/
theorem acceptEvents_twice (q : Params) (k : PinSink) (evs : List PinEvent) :
    (acceptEvents q (acceptEvents q k evs) evs).sinkFault = (acceptEvents q k evs).sinkFault ∧
    ∀ p, levelAt (acceptEvents q (acceptEvents q k evs) evs) p = levelAt (acceptEvents q k evs) p ∧
      isOutputAt (acceptEvents q (acceptEvents q k evs) evs) p = isOutputAt (acceptEvents q k evs) p := by
  refine ⟨?_, fun p => ?_⟩
  · rw [sinkFault_acceptEvents, sinkFault_acceptEvents q k, Bool.or_assoc, Bool.or_self]
  · cases hp : pinValid q p with
    | true =>
      refine ⟨?_, Bool.eq_iff_iff.mpr ?_⟩
      · rw [levelAt_acceptEvents_of_pinValid hp, levelAt_acceptEvents_of_pinValid hp, ← Option.or_assoc, Option.or_self]
      · rw [isOutputAt_acceptEvents_of_pinValid hp, isOutputAt_acceptEvents_of_pinValid hp, or_assoc, or_self]
    | false =>
      exact ⟨levelAt_acceptEvents_of_not_pinValid hp _ evs, isOutputAt_acceptEvents_of_not_pinValid hp _ evs⟩

end Sys2Proof.Machine
end

section
/-! Where pin events come from (20_memory.md R55, R58), and the PinSink along a run (20_memory.md R53). -/

namespace Sys2Proof.Machine

/-- The writes of a command in a state that meets the invariant name pins that have been registered. -/
theorem Does.writes_registered {s t : State} {i : Instr} {o : Observation} (h : Does s i t) (hs : Inv s)
    (hobs : t.obs = s.obs ++ [o]) {p : PinId} {l : Level} (hp : .write p l ∈ o.pinEv) :
    (isStep i = true ∨ i = .apply ∨ i = .release) ∧ (p = s.regs.pin1 ∨ p = s.regs.pin2 ∨ p = s.regs.pin3) ∧
      PinRegistered s.params s.sink p := by
  cases hn : isNew i with
  | true =>
    obtain ⟨p1, p2, p3, pt, rfl⟩ := h.constructs hn
    obtain rfl := List.singleton_inj.mp (List.append_cancel_left hobs)
    simp at hp
  | false =>
    obtain ⟨o', hobs', -, hwrites, hsource⟩ := h.events hn
    obtain rfl := List.singleton_inj.mp (List.append_cancel_left (hobs.symm.trans hobs'))
    obtain ⟨_, _, he, hpin⟩ := hwrites _ hp
    cases he
    rcases hsource with hnone | ⟨hc, hkind⟩
    · simp [hnone] at hp
    · obtain ⟨h1, h2, h3⟩ := hs.pins hc
      refine ⟨by tauto, hpin, ?_⟩
      rcases hpin with rfl | rfl | rfl
      · exact h1
      · exact h2
      · exact h3

/-- Only NEW configures a pin. -/
theorem Does.config_source {s t : State} {i : Instr} {o : Observation} (h : Does s i t)
    (hobs : t.obs = s.obs ++ [o]) {p : PinId} (hp : .config p ∈ o.pinEv) : isNew i = true := by
  by_contra hn
  obtain ⟨o', hobs', -, hwrites, -⟩ := h.events (by simpa using hn)
  obtain rfl := List.singleton_inj.mp (List.append_cancel_left (hobs.symm.trans hobs'))
  obtain ⟨_, _, he, -⟩ := hwrites _ hp
  cases he

/-- Settles O16: a word that decodes runs its command, any other emits nothing. -/
theorem pinEventSources : Obligations.PinEventSources := by
  unfold Obligations.PinEventSources
  intro s t cmd now rest o hinv hs hstep hobs
  rcases step_command_cases hs hstep with ⟨i, hdec, hexec⟩ | rfl
  · have h := exec_does hexec
    refine ⟨fun p hp => ⟨i, hdec, h.config_source hobs hp⟩, fun p l hp => ?_⟩
    obtain ⟨hkind, hpin, hreg⟩ := h.writes_registered (beginTransaction_inv hinv now rest) hobs hp
    refine ⟨?_, hpin, fun hvalid => (if_pos hvalid).mp hreg⟩
    rw [hdec]
    rcases hkind with hi | rfl | rfl
    · rcases isStep_cases i hi with rfl | rfl <;> simp
    · simp
    · simp
  · obtain rfl := List.singleton_inj.mp (List.append_cancel_left hobs)
    simp

/-- One step with no reset presented: a command taken adds its entry, whose events reach the PinSink. -/
theorem step_observes {s t : State} (hs : .powerOnReset ∉ s.host) (h : step s = .next t) :
    ∃ os, t.obs = s.obs ++ os ∧ os.length = min 1 s.host.length ∧
      t.sink = acceptEvents s.params s.sink (os.flatMap Observation.pinEv) := by
  cases hhost : s.host with
  | nil =>
    rw [step_of_host_nil s hhost] at h
    obtain rfl := next_inj h
    exact ⟨[], by simp [idle]⟩
  | cons input rest =>
    cases input with
    | powerOnReset => simp [hhost] at hs
    | command cmd now =>
      rcases step_command_cases hhost h with ⟨i, -, hexec⟩ | rfl
      · obtain ⟨st, r, ⟨-, -, -, evs, hobs, hsink, -⟩, -⟩ := exec_answers i _ t hexec
        exact ⟨[⟨respWord st r, evs⟩], hobs, by simp, by simpa using hsink⟩
      · exact ⟨[⟨respWord .illegal false, []⟩], by simp⟩

/-- Settles O50: each step adds its entry and hands on its events, by induction over the run. -/
theorem pinSinkFollowsTheEvents : Obligations.PinSinkFollowsTheEvents := by
  unfold Obligations.PinSinkFollowsTheEvents
  intro n
  induction n with
  | zero =>
    intro s t _ h
    obtain rfl := next_inj h
    exact ⟨[], by simp⟩
  | succ n ih =>
    intro s t hs h
    obtain ⟨u, hstep, hrun⟩ := runSteps_succ_inv h
    obtain ⟨hparams, hhost⟩ := stepTakesOneInput s u hstep
    obtain ⟨os, hobs, hlen, hsink⟩ := step_observes hs hstep
    obtain ⟨os', hobs', hlen', hsink'⟩ := ih u t (fun hx => hs (List.mem_of_mem_tail (hhost ▸ hx))) hrun
    refine ⟨os ++ os', ?_, ?_, ?_⟩
    · rw [hobs', hobs, List.append_assoc]
    · rw [List.length_append, hlen, hlen', hhost, List.length_tail]
      omega
    · rw [hsink', hparams, hsink, List.flatMap_append, acceptEvents_append]

end Sys2Proof.Machine
end

section
/-! Relations between two runs that are given the same inputs. -/

namespace Sys2Proof.Machine

/-- `R` relates states that find the same inputs, and what any one input makes of two of them. -/
structure KeptByInputs (R : State → State → Prop) : Prop where
  host    : ∀ {s u}, R s u → u.host = s.host
  powerOn : ∀ {s u}, R s u → ∀ rest, R (powerOn rest s) (powerOn rest u)
  begins  : ∀ {s u}, R s u → ∀ now rest, R (beginTransaction now rest s) (beginTransaction now rest u)
  raises  : ∀ {s u}, R s u → ∀ st, R (raise st s) (raise st u)
  execs   : ∀ {i s u t}, R s u → exec i s = .next t → ∃ v, exec i u = .next v ∧ R t v

/-- A step keeps such a relation, by the input that both states find. -/
theorem KeptByInputs.step {R : State → State → Prop} (hR : KeptByInputs R) {s t u : State} (hsu : R s u)
    (h : step s = .next t) : ∃ v, step u = .next v ∧ R t v := by
  have hhost := hR.host hsu
  cases hs : s.host with
  | nil =>
    rw [step_of_host_nil s hs] at h
    obtain rfl := next_inj h
    exact ⟨u, step_of_host_nil u (hhost.trans hs), hsu⟩
  | cons input rest =>
    have hu := hhost.trans hs
    cases input with
    | powerOnReset =>
      rw [step_of_host_reset s rest hs] at h
      obtain rfl := next_inj h
      exact ⟨_, step_of_host_reset u rest hu, hR.powerOn hsu rest⟩
    | command cmd now =>
      have hbegin := hR.begins hsu now rest
      rw [step_of_host_command s cmd now rest hs] at h
      rw [step_of_host_command u cmd now rest hu]
      cases hd : decode cmd with
      | ok i =>
        simp only [hd] at h
        exact hR.execs hbegin h
      | error e =>
        simp only [hd] at h
        obtain rfl := next_inj h
        exact ⟨_, rfl, hR.raises hbegin .illegal⟩

/-- A run keeps what every step keeps. -/
theorem KeptByInputs.runSteps {R : State → State → Prop} (hR : KeptByInputs R) {n : Nat} {s t u : State}
    (hsu : R s u) (h : runSteps n s = .next t) : ∃ v, runSteps n u = .next v ∧ R t v := by
  induction n generalizing s u with
  | zero =>
    obtain rfl := next_inj h
    exact ⟨u, rfl, hsu⟩
  | succ n ih =>
    obtain ⟨s1, hs1, hrun⟩ := runSteps_succ_inv h
    obtain ⟨u1, hu1, hrel⟩ := hR.step hsu hs1
    rw [runSteps_succ_next n u u1 hu1]
    exact ih hrel hrun

end Sys2Proof.Machine
end

section
/-! Commands on related states: what no command reads of the PinSink (20_memory.md R57) or of the clock (R61), and commands
given twice (R64). -/

namespace Sys2Proof.Machine

/-- What a command does past the check of R202. `exec_eq_effect` ties it to `exec`. -/
def effect (i : Instr) (s : State) : State :=
  match i with
  | .new p1 p2 p3 pt => respond .ok false [.config p1, .config p2, .config p3] (newRegisters p1 p2 p3 pt s)
  | .setSpeed rpm => if rpm ≤ 0 then raise .invalidArgument s else respond .ok false [] (anchor rpm.toNat s)
  | .setSpeedControl en => respond .ok false [] (setSpeedControl en s)
  | .stepFwd => stepRing ringFwd s
  | .stepBwd => stepRing ringBwd s
  | .release => respond .ok false (driveAllLowEvents s.regs) (setRunning false s)
  | .resume => respond .ok false [] (setRunning true s)
  | .apply => respond .ok false (applyEvents s.regs) s

theorem effect_setSpeed_rejected {rpm : Int} (h : rpm ≤ 0) (s : State) :
    effect (.setSpeed rpm) s = raise .invalidArgument s := if_pos h

theorem effect_setSpeed_anchored {rpm : Int} (h : ¬rpm ≤ 0) (s : State) :
    effect (.setSpeed rpm) s = respond .ok false [] (anchor rpm.toNat s) := if_neg h

/-- A command is its effect, but for UNCONFIGURED (60_exceptions.md R202). -/
theorem exec_eq_effect (i : Instr) (s : State) :
    exec i s = .next (if s.regs.configured = false ∧ isNew i = false then raise .unconfigured s else effect i s) := by
  by_cases h : s.regs.configured = false ∧ isNew i = false
  · rw [if_pos h]
    exact exec_of_unconfigured h.1 h.2
  · rw [if_neg h]
    cases i with
    | new => rfl
    | _ =>
      have hc : s.regs.configured = true := by simpa [isNew] using h
      simp only [exec, execSetSpeed, execSetSpeedControl, execStepFwd, execStepBwd, execRelease, execResume, execApply,
        whenConfigured_of_configured s _ hc, effect]

/-- A command answers related states on states with the same `configured` whose effects are related. -/
theorem exec_related {R : State → State → Prop} {i : Instr} {s t u : State}
    (hc : u.regs.configured = s.regs.configured) (hraise : R (raise .unconfigured s) (raise .unconfigured u))
    (heffect : R (effect i s) (effect i u)) (h : exec i s = .next t) : ∃ v, exec i u = .next v ∧ R t v := by
  rw [exec_eq_effect] at h
  obtain rfl := next_inj h
  refine ⟨_, exec_eq_effect i u, ?_⟩
  rw [hc]
  split
  · exact hraise
  · exact heffect

/-- A ring step at an open gate (42_stepping.md R140, R142). -/
theorem stepRing_of_open (ring : BitVec 3 → PosWord → PosWord) {s : State}
    (h : s.regs.speedControl = true → due s.params.clkW s.now s.regs.nextUpdate = true) :
    stepRing ring s = respond .ok true (applyEvents (movedRegs ring s)) { s with regs := movedRegs ring s } := by
  rcases stepRing_regs_cases ring s with ⟨⟨hon, hlate⟩, -⟩ | ⟨-, _, rfl, hs⟩
  · simp [h hon] at hlate
  · exact hs

/-- A ring step at a closed gate. -/
theorem stepRing_of_closed (ring : BitVec 3 → PosWord → PosWord) {s : State}
    (h : ¬(s.regs.speedControl = true → due s.params.clkW s.now s.regs.nextUpdate = true)) :
    stepRing ring s = respond .ok false [] s := by
  rcases stepRing_regs_cases ring s with ⟨-, hs⟩ | ⟨hopen, -⟩
  · exact hs
  · exact absurd hopen h

/-! ### The PinSink is not read -/

/-- `u` is `s`, but for `PIN_VALID` and the PinSink. -/
def SameBlock (s u : State) : Prop :=
  ∃ (v : List PinId) (k : PinSink), u = { s with params := { s.params with validPins := v }, sink := k }

theorem SameBlock.regs {s u : State} (h : SameBlock s u) : u.regs = s.regs := by
  obtain ⟨_, _, rfl⟩ := h
  rfl

theorem SameBlock.respond {s u : State} (h : SameBlock s u) (st : Status) (r : Bool) (evs : List PinEvent) :
    SameBlock (respond st r evs s) (respond st r evs u) := by
  obtain ⟨v, k, rfl⟩ := h
  exact ⟨v, _, rfl⟩

theorem SameBlock.raise {s u : State} (h : SameBlock s u) (st : Status) : SameBlock (raise st s) (raise st u) :=
  h.respond st false []

theorem SameBlock.beginTransaction {s u : State} (h : SameBlock s u) (now : ClockWord) (rest : List HostInput) :
    SameBlock (beginTransaction now rest s) (beginTransaction now rest u) := by
  obtain ⟨v, k, rfl⟩ := h
  exact ⟨v, k, rfl⟩

theorem SameBlock.powerOn {s u : State} (h : SameBlock s u) (rest : List HostInput) :
    SameBlock (powerOn rest s) (powerOn rest u) := by
  obtain ⟨v, k, rfl⟩ := h
  exact ⟨v, _, rfl⟩

theorem SameBlock.stepRing {s u : State} (h : SameBlock s u) (ring : BitVec 3 → PosWord → PosWord) :
    SameBlock (stepRing ring s) (stepRing ring u) := by
  obtain ⟨v, k, rfl⟩ := h
  by_cases hgate : s.regs.speedControl = true → due s.params.clkW s.now s.regs.nextUpdate = true
  · rw [stepRing_of_open ring hgate, stepRing_of_open ring (by exact hgate)]
    exact ⟨v, _, rfl⟩
  · rw [stepRing_of_closed ring hgate, stepRing_of_closed ring (by exact hgate)]
    exact ⟨v, _, rfl⟩

/-- No command's effect reads `PIN_VALID` or the PinSink. -/
theorem SameBlock.effect {s u : State} (h : SameBlock s u) (i : Instr) : SameBlock (effect i s) (effect i u) := by
  cases i with
  | setSpeed rpm =>
    by_cases hr : rpm ≤ 0
    · rw [effect_setSpeed_rejected hr, effect_setSpeed_rejected hr]
      exact h.raise _
    · rw [effect_setSpeed_anchored hr, effect_setSpeed_anchored hr]
      obtain ⟨v, k, rfl⟩ := h
      exact ⟨v, _, rfl⟩
  | stepFwd => exact h.stepRing ringFwd
  | stepBwd => exact h.stepRing ringBwd
  | _ =>
    obtain ⟨v, k, rfl⟩ := h
    exact ⟨v, _, rfl⟩

theorem exec_sameBlock {i : Instr} {s t u : State} (hsu : SameBlock s u) (h : exec i s = .next t) :
    ∃ v, exec i u = .next v ∧ SameBlock t v :=
  exec_related (by rw [hsu.regs]) (hsu.raise _) (hsu.effect i) h

theorem keptByInputs_sameBlock : KeptByInputs SameBlock where
  host := fun ⟨_, _, h⟩ => by rw [h]
  powerOn h := h.powerOn
  begins h := h.beginTransaction
  raises h := h.raise
  execs := exec_sameBlock

/-- Settles O49: the relation holds at the start and every run keeps it. -/
theorem blockIgnoresThePinSink : Obligations.BlockIgnoresThePinSink := by
  unfold Obligations.BlockIgnoresThePinSink
  intro n s t v k hrun
  obtain ⟨u, hu, _, _, rfl⟩ := keptByInputs_sameBlock.runSteps ⟨v, k, rfl⟩ hrun
  exact ⟨_, hu, rfl, rfl, rfl, rfl⟩

/-! ### The clock is not read -/

/-- A ring step that is not gated does not read the clock (41_speed_gating.md R123). -/
theorem stepRing_of_now (ring : BitVec 3 → PosWord → PosWord) {s : State} (h : s.regs.speedControl = false)
    (n : ClockWord) : stepRing ring { s with now := n } = { stepRing ring s with now := n } := by
  rw [stepRing_of_open ring (by simp [h]), stepRing_of_open ring (by simp [h])]
  rfl

theorem effect_of_now {i : Instr} {s : State} (hnew : isNew i = false) (hspeed : isSetSpeed i = false)
    (hungated : isStep i = true → s.regs.speedControl = false) (n : ClockWord) :
    effect i { s with now := n } = { effect i s with now := n } := by
  cases i with
  | new => cases hnew
  | setSpeed => cases hspeed
  | stepFwd => exact stepRing_of_now ringFwd (hungated rfl) n
  | stepBwd => exact stepRing_of_now ringBwd (hungated rfl) n
  | _ => rfl

/-- Settles O53: the effect of these commands does not read the clock. -/
theorem ungatedCommandsIgnoreTheClock : Obligations.UngatedCommandsIgnoreTheClock := by
  unfold Obligations.UngatedCommandsIgnoreTheClock
  intro s t i n hnew hspeed hungated h
  obtain ⟨_, hexec, rfl⟩ := exec_related (R := fun a b => b = { a with now := n }) (s := s)
    (u := { s with now := n }) rfl rfl (effect_of_now hnew hspeed hungated n) h
  exact hexec

/-! ### Commands given twice -/

/-- `t` is `s` after a command and `u` is `t` after it again: the second writes no register anew and emits the events of
the first once more. -/
def Repeated (s t u : State) : Prop :=
  u.regs = t.regs ∧ ∃ evs, t.sink = acceptEvents s.params s.sink evs ∧ u.sink = acceptEvents s.params t.sink evs

/-- The effect of a command other than a step sets registers to values that its own writes do not change, and its events
read only registers that it does not write. -/
theorem effect_repeated {i : Instr} (hi : isStep i = false) (s : State) :
    Repeated s (effect i s) (effect i (effect i s)) := by
  cases i with
  | new p1 p2 p3 pt =>
    exact ⟨by simp [effect, newRegisters_regs], [.config p1, .config p2, .config p3], rfl, by simp [effect]⟩
  | setSpeed rpm =>
    by_cases hr : rpm ≤ 0
    · rw [effect_setSpeed_rejected hr, effect_setSpeed_rejected hr]
      exact ⟨rfl, [], rfl, rfl⟩
    · rw [effect_setSpeed_anchored hr, effect_setSpeed_anchored hr]
      exact ⟨rfl, [], rfl, rfl⟩
  | setSpeedControl en => exact ⟨rfl, [], rfl, rfl⟩
  | stepFwd => cases hi
  | stepBwd => cases hi
  | release => exact ⟨rfl, driveAllLowEvents s.regs, rfl, rfl⟩
  | resume => exact ⟨rfl, [], rfl, rfl⟩
  | apply => exact ⟨rfl, applyEvents s.regs, rfl, rfl⟩

theorem exec_repeated {i : Instr} {s t u : State} (hi : isStep i = false) (h : exec i s = .next t)
    (h' : exec i t = .next u) : Repeated s t u := by
  by_cases hc : s.regs.configured = false ∧ isNew i = false
  · rw [exec_of_unconfigured hc.1 hc.2] at h
    obtain rfl := next_inj h
    rw [exec_of_unconfigured (by exact hc.1) hc.2] at h'
    obtain rfl := next_inj h'
    exact ⟨rfl, [], rfl, rfl⟩
  · have hc' : ¬(t.regs.configured = false ∧ isNew i = false) := by
      rintro ⟨ht, hn⟩
      have hwritten := (exec_does h).configured_written fun he => hc ⟨he ▸ ht, hn⟩
      simp [hn] at hwritten
    rw [exec_eq_effect, if_neg hc] at h
    rw [exec_eq_effect, if_neg hc'] at h'
    obtain rfl := next_inj h
    obtain rfl := next_inj h'
    exact effect_repeated hi s

/-- Settles O54: the registers are written to the same values, and the same events given twice read as once. -/
theorem repeatedCommandsAreIdempotent : Obligations.RepeatedCommandsAreIdempotent := by
  unfold Obligations.RepeatedCommandsAreIdempotent
  intro s t u i hi h h'
  obtain ⟨hregs, evs, ht, hu⟩ := exec_repeated hi h h'
  rw [hu, ht]
  exact ⟨hregs, acceptEvents_twice s.params s.sink evs⟩

end Sys2Proof.Machine
end

section
/-! The opcode table as the decoder reads it: which words decode, and to which command (30_encoding.md R76 to R79). -/

namespace Sys2Proof

theorem append_inj_iff {m n : Nat} {a b : BitVec m} {c d : BitVec n} : a ++ c = b ++ d ↔ a = b ∧ c = d := by
  refine ⟨fun h => ⟨?_, ?_⟩, by rintro ⟨rfl, rfl⟩; rfl⟩
  · simpa only [BitVec.extractLsb'_append_eq_left] using congrArg (BitVec.extractLsb' n m) h
  · simpa only [BitVec.extractLsb'_append_eq_right] using congrArg (BitVec.extractLsb' 0 n) h

/-- Bits under a mask with the whole opcode in it and `r` below: they are those of an opcode alone where the opcode is
that one and no bit of `r` is set. -/
theorem and_opcodeMask_eq_iff (w : CmdWord) (r : BitVec 56) (op : BitVec 8) :
    w &&& (0xFF#8 ++ r) = op ++ 0#56 ↔ opcodeField w = op ∧ w &&& (0#8 ++ r) = 0 := by
  obtain ⟨a, c, rfl⟩ : ∃ (a : BitVec 8) (c : BitVec 56), w = a ++ c :=
    ⟨w.extractLsb' 56 8, w.extractLsb' 0 56, (BitVec.extractLsb'_append_extractLsb' (w := 8) (len := 56)).symm⟩
  have hop : opcodeField (a ++ c) = a := BitVec.extractLsb'_append_eq_left
  have hzero : (0 : CmdWord) = 0#8 ++ 0#56 := rfl
  rw [hop, hzero, BitVec.and_append, BitVec.and_append, append_inj_iff, append_inj_iff,
    show a &&& 0xFF#8 = a from BitVec.and_allOnes]
  simp

/-- The reserved bits of a command's row, by its format (30_encoding.md R79). -/
def rowReserved : Instr → CmdWord
  | .new _ _ _ _ => reservedC
  | .setSpeed _ => reservedS
  | .setSpeedControl _ => reservedB
  | .stepFwd => reservedN
  | .stepBwd => reservedN
  | .release => reservedN
  | .resume => reservedN
  | .apply => reservedN

/-- The opcode of a command's row. -/
def rowOpcode : Instr → BitVec 8
  | .new _ _ _ _ => 0x01#8
  | .setSpeed _ => 0x02#8
  | .setSpeedControl _ => 0x03#8
  | .stepFwd => 0x04#8
  | .stepBwd => 0x05#8
  | .release => 0x06#8
  | .resume => 0x07#8
  | .apply => 0x08#8

/-- The command of `i`'s row with the operands a word holds (30_encoding.md R71 to R74). -/
def readOperands (w : CmdWord) : Instr → Instr
  | .new _ _ _ _ => decodeNew w
  | .setSpeed _ => decodeSetSpeed w
  | .setSpeedControl _ => decodeSetSpeedControl w
  | i => i

/-- A row's mask covers the opcode and the reserved bits. -/
theorem exists_rowMask_eq (i : Instr) : ∃ r : BitVec 56, rowMask i = 0xFF#8 ++ r ∧ rowReserved i = 0#8 ++ r := by
  refine ⟨(rowMask i).setWidth 56, ?_⟩
  cases i <;> (simp only [rowMask, rowReserved]; decide)

theorem rowMatch_eq (i : Instr) : rowMatch i = rowOpcode i ++ 0#56 := by
  cases i <;> (simp only [rowMatch, rowOpcode]; decide)

theorem and_rowMask_eq_rowMatch_iff (w : CmdWord) (i : Instr) :
    w &&& rowMask i = rowMatch i ↔ opcodeField w = rowOpcode i ∧ w &&& rowReserved i = 0 := by
  obtain ⟨r, hmask, hreserved⟩ := exists_rowMask_eq i
  rw [hmask, hreserved, rowMatch_eq]
  exact and_opcodeMask_eq_iff w r _

/-- Under a row's opcode, decoding is the check of that row's reserved bits (30_encoding.md R76). -/
theorem decode_of_opcode {w : CmdWord} {i : Instr} (h : opcodeField w = rowOpcode i) :
    decode w = unlessReserved w (rowReserved i) (readOperands w i) := by
  cases i <;> simp [decode, h, rowOpcode, rowReserved, readOperands]

theorem unlessReserved_eq_ok_iff (w r : CmdWord) (i j : Instr) :
    unlessReserved w r i = .ok j ↔ w &&& r = 0 ∧ i = j := by
  unfold unlessReserved
  split
  case isTrue hzero => simp [hzero]
  case isFalse hset => simpa using fun h => absurd h hset

/-- A word that decodes has the opcode of its command's row. -/
theorem opcodeField_of_decode {w : CmdWord} {i : Instr} (h : decode w = .ok i) : opcodeField w = rowOpcode i := by
  unfold decode at h
  split at h
  case h_9 => cases h
  all_goals
    obtain ⟨-, rfl⟩ := (unlessReserved_eq_ok_iff ..).mp h
    exact BitVec.eq_of_toNat_eq ‹_›

/-- A word decodes to a command exactly where it matches the command's row and holds its operands (30_encoding.md R79). -/
theorem decode_eq_ok_iff {w : CmdWord} {i : Instr} :
    decode w = .ok i ↔ w &&& rowMask i = rowMatch i ∧ readOperands w i = i := by
  rw [and_rowMask_eq_rowMatch_iff]
  constructor
  · intro h
    have hop := opcodeField_of_decode h
    rw [decode_of_opcode hop, unlessReserved_eq_ok_iff] at h
    exact ⟨⟨hop, h.1⟩, h.2⟩
  · rintro ⟨⟨hop, hres⟩, hread⟩
    rw [decode_of_opcode hop, unlessReserved_eq_ok_iff]
    exact ⟨hres, hread⟩

/-- Settles O1: each row by the row's own match, and a word that decodes matches the row of its command. -/
theorem decodeReadsEveryRow : Obligations.DecodeReadsEveryRow := by
  unfold Obligations.DecodeReadsEveryRow
  intro w
  refine ⟨fun h => decode_eq_ok_iff.mpr ⟨h, rfl⟩, fun h => decode_eq_ok_iff.mpr ⟨h, rfl⟩,
    fun h => decode_eq_ok_iff.mpr ⟨h, rfl⟩, fun h => h ▸ rfl, fun h => h ▸ rfl, fun h => h ▸ rfl, fun h => h ▸ rfl,
    fun h => h ▸ rfl, ?_⟩
  intro hnew hsetSpeed hsetSpeedControl hstepFwd hstepBwd hrelease hresume happly
  cases hd : decode w with
  | error e => exact ⟨e, rfl⟩
  | ok i =>
    obtain ⟨hrow, -⟩ := decode_eq_ok_iff.mp hd
    have hall : w &&& 0xFFFFFFFFFFFFFFFF#64 = w := BitVec.and_allOnes
    cases i with
    | new => exact absurd hrow hnew
    | setSpeed => exact absurd hrow hsetSpeed
    | setSpeedControl => exact absurd hrow hsetSpeedControl
    | stepFwd => exact absurd (hall.symm.trans hrow) hstepFwd
    | stepBwd => exact absurd (hall.symm.trans hrow) hstepBwd
    | release => exact absurd (hall.symm.trans hrow) hrelease
    | resume => exact absurd (hall.symm.trans hrow) hresume
    | apply => exact absurd (hall.symm.trans hrow) happly

/-- Settles O4: each line and each word is evaluated. -/
theorem commonCommandWords : Obligations.CommonCommandWords := by
  unfold Obligations.CommonCommandWords
  decide

end Sys2Proof
end

section
/-! The response to a command word (30_encoding.md R80, R81). -/

namespace Sys2Proof.Machine

/-! ### The fields of a response word -/

theorem respWord_reserved (st : Status) (r : Bool) : (respWord st r).extractLsb' 3 5 = 0#5 := by
  cases st <;> cases r <;> rfl

theorem respWord_result (st : Status) (r : Bool) : (respWord st r).getLsbD 2 = r := by
  cases st <;> cases r <;> rfl

theorem respWord_inj {st st' : Status} {r r' : Bool} (h : respWord st r = respWord st' r') : st = st' ∧ r = r' := by
  revert h
  cases st <;> cases st' <;> cases r <;> cases r' <;> decide

theorem statusCode_cases (st : Status) :
    statusCode st = 0#2 ∨ statusCode st = 1#2 ∨ statusCode st = 2#2 ∨ statusCode st = 3#2 := by
  cases st <;> decide

/-- The response words of R81, where a result is reported with OK only. -/
theorem respWord_cases {st : Status} {r : Bool} (h : r = true → st = .ok) :
    respWord st r = 0x00#8 ∨ respWord st r = 0x04#8 ∨ respWord st r = 0x01#8 ∨ respWord st r = 0x02#8 ∨
      respWord st r = 0x03#8 := by
  cases r with
  | true => obtain rfl := h rfl; decide
  | false => cases st <;> decide

/-! ### Which command answers what -/

/-- A command takes a step: a step command, on a configured block, whose gate is open (42_stepping.md R140, R142). -/
def TakesStep (i : Instr) (s : State) : Prop :=
  isStep i = true ∧ s.regs.configured = true ∧
    (s.regs.speedControl = true → due s.params.clkW s.now s.regs.nextUpdate = true)

/-- A ring step reports whether its gate was open. -/
theorem answers_stepRing_result (ring : BitVec 3 → PosWord → PosWord) (s : State) :
    ∃ r, Answers s (stepRing ring s) .ok r ∧
      (r = true ↔ (s.regs.speedControl = true → due s.params.clkW s.now s.regs.nextUpdate = true)) := by
  by_cases hgate : s.regs.speedControl = true → due s.params.clkW s.now s.regs.nextUpdate = true
  · refine ⟨true, ?_, by simpa using hgate⟩
    rw [stepRing_of_open ring hgate]
    exact answers_respond_ok s (movedRegs ring s) true _
  · refine ⟨false, ?_, by simpa using hgate⟩
    rw [stepRing_of_closed ring hgate]
    exact answers_respond_ok s s.regs false []

/-- A step command on a configured block is a ring step. -/
theorem exec_of_isStep {i : Instr} {s : State} (hi : isStep i = true) (hc : s.regs.configured = true) :
    ∃ ring, exec i s = .next (stepRing ring s) := by
  rcases isStep_cases i hi with rfl | rfl
  · exact ⟨ringFwd, whenConfigured_of_configured s _ hc⟩
  · exact ⟨ringBwd, whenConfigured_of_configured s _ hc⟩

/-- What a command's response says: the result is 1 where a step is taken, with OK then, and INVALID_ARGUMENT comes from a
bad speed. -/
theorem exec_answers_result {i : Instr} {s t : State} (h : exec i s = .next t) :
    ∃ st r, Answers s t st r ∧ (r = true → st = .ok) ∧ (r = true ↔ TakesStep i s) ∧
      (st = .invalidArgument → isBadSpeed i = true) := by
  obtain ⟨st, r, hans, hst, hr⟩ := exec_answers i s t h
  by_cases hi : isStep i = true ∧ s.regs.configured = true
  · obtain ⟨ring, hring⟩ := exec_of_isStep hi.1 hi.2
    obtain rfl := next_inj (h.symm.trans hring)
    obtain ⟨r', hans', hr'⟩ := answers_stepRing_result ring s
    exact ⟨.ok, r', hans', fun _ => rfl, by simp [hr', TakesStep, hi], by simp⟩
  · refine ⟨st, r, hans, fun h => (hr h).1, ⟨fun h => ?_, fun ⟨hs, hc, _⟩ => absurd ⟨hs, hc⟩ hi⟩, ?_⟩
    · obtain ⟨hok, hs⟩ := hr h
      have hc : s.regs.configured = false := by simpa [hs] using hi
      simp [hst, hc, isNew_of_isStep hs] at hok
    · rw [hst]
      split_ifs <;> simp [*]

theorem exists_of_isBadSpeed {i : Instr} (h : isBadSpeed i = true) : ∃ rpm, i = .setSpeed rpm := by
  cases i with
  | setSpeed rpm => exact ⟨rpm, rfl⟩
  | _ => cases h

/-- A word whose command takes a step is a step command's. -/
theorem exists_takesStep_iff {cmd : CmdWord} {s : State} :
    (∃ i, decode cmd = .ok i ∧ TakesStep i s) ↔
      (decode cmd = .ok .stepFwd ∨ decode cmd = .ok .stepBwd) ∧ s.regs.configured = true ∧
        (s.regs.speedControl = true → due s.params.clkW s.now s.regs.nextUpdate = true) := by
  constructor
  · rintro ⟨i, hdec, hi, hopen⟩
    rcases isStep_cases i hi with rfl | rfl
    · exact ⟨.inl hdec, hopen⟩
    · exact ⟨.inr hdec, hopen⟩
  · rintro ⟨hdec | hdec, hopen⟩
    · exact ⟨_, hdec, rfl, hopen⟩
    · exact ⟨_, hdec, rfl, hopen⟩

/-- What the step of a command word answers. -/
theorem step_answers {s : State} {cmd : CmdWord} {now : ClockWord} {rest : List HostInput}
    (hs : s.host = .command cmd now :: rest) :
    ∃ t st r, step s = .next t ∧ Answers (beginTransaction now rest s) t st r ∧ (r = true → st = .ok) ∧
      (r = true ↔ ∃ i, decode cmd = .ok i ∧ TakesStep i (beginTransaction now rest s)) ∧
      (st = .invalidArgument → ∃ rpm, decode cmd = .ok (.setSpeed rpm)) := by
  rw [step_of_host_command s cmd now rest hs]
  cases decode cmd with
  | error e => exact ⟨_, .illegal, false, rfl, answers_raise _ _, by simp, by simp, by simp⟩
  | ok i =>
    obtain ⟨t, ht⟩ := exec_next i (beginTransaction now rest s)
    obtain ⟨st, r, hans, hok, htakes, hbad⟩ := exec_answers_result ht
    refine ⟨t, st, r, ht, hans, hok, by simpa using htakes, fun h => ?_⟩
    obtain ⟨rpm, rfl⟩ := exists_of_isBadSpeed (hbad h)
    exact ⟨rpm, rfl⟩

/-- Settles O8, by what the step answers and the fields of its response word. -/
theorem oneResponsePerCommand : Obligations.OneResponsePerCommand := by
  unfold Obligations.OneResponsePerCommand
  intro s cmd now rest hs
  obtain ⟨t, st, r, hstep, ⟨-, hnow, hhost, evs, hobs, -, -⟩, hok, htakes, -⟩ := step_answers hs
  refine ⟨t, _, hstep, hobs, hhost, respWord_reserved st r, fun h => ?_, ?_, ?_⟩
  · rw [respWord_result] at h
    rw [statusField_respWord, hok h]
    rfl
  · rw [respWord_result, htakes, hnow, exists_takesStep_iff]
    rfl
  · rw [statusField_respWord]
    exact statusCode_cases st

/-- Settles O9, by what the step answers: 0x04 is OK with the result, 0x01 is INVALID_ARGUMENT. -/
theorem possibleResponses : Obligations.PossibleResponses := by
  unfold Obligations.PossibleResponses
  intro s t cmd now rest o hs hstep hobs
  obtain ⟨u, st, r, hstep', ⟨-, -, -, evs, hobs', -, -⟩, hok, htakes, hbad⟩ := step_answers hs
  obtain rfl := next_inj (hstep.symm.trans hstep')
  obtain rfl := List.singleton_inj.mp (List.append_cancel_left (hobs.symm.trans hobs'))
  refine ⟨respWord_cases hok, fun (h : respWord st r = respWord .ok true) => ?_,
    fun (h : respWord st r = respWord .invalidArgument false) => ?_⟩
  · obtain ⟨-, hr⟩ := respWord_inj h
    exact (exists_takesStep_iff.mp (htakes.mp hr)).1
  · obtain ⟨hst, -⟩ := respWord_inj h
    exact hbad hst

end Sys2Proof.Machine
end

section
/-! NEW (40_construction.md): the registers it writes, what its three PinConfigs leave at the PinSink, and the patterns of
this hardware. -/

namespace Sys2Proof.Machine

/-! ### The registers -/

/-- NEW does not ask whether the block is configured (40_construction.md R105). -/
theorem exec_new (p1 p2 p3 : PinId) (pt : BitVec 8) (s : State) :
    exec (.new p1 p2 p3 pt) s =
      .next (respond .ok false [.config p1, .config p2, .config p3] (newRegisters p1 p2 p3 pt s)) := rfl

theorem newRegisters_holdsPattern (p1 p2 p3 : PinId) (pt : BitVec 8) (s : State) :
    HoldsPattern s.params (newRegisters p1 p2 p3 pt s).regs (selectPattern s.params pt) := ⟨rfl, rfl, rfl, rfl⟩

theorem newRegisters_timeStep_toNat (p1 p2 p3 : PinId) (pt : BitVec 8) (s : State) :
    (newRegisters p1 p2 p3 pt s).regs.timeStep.toNat =
      60000000 / s.params.defaultRpm / (newRegisters p1 p2 p3 pt s).regs.stepCount.toNat :=
  wrap_timeStepOf_toNat _ _ _

/-- The deadline of NEW is one time step past its sample. -/
theorem newRegisters_nextUpdate_toNat (p1 p2 p3 : PinId) (pt : BitVec 8) (s : State) :
    (newRegisters p1 p2 p3 pt s).regs.nextUpdate.toNat =
      (s.now.toNat + (newRegisters p1 p2 p3 pt s).regs.timeStep.toNat) % 2 ^ clockBits s.params.clkW :=
  addW_toNat_nat _ _ _

/-- Settles O19: the pattern, the time step and the deadline by their lemmas, the rest as NEW writes it. -/
theorem newConstructs : Obligations.NewConstructs := by
  unfold Obligations.NewConstructs
  intro s p1 p2 p3 pt
  exact ⟨_, exec_new p1 p2 p3 pt s, newRegisters_holdsPattern p1 p2 p3 pt s, rfl, rfl, rfl, rfl, rfl, rfl, rfl,
    newRegisters_timeStep_toNat p1 p2 p3 pt s, newRegisters_nextUpdate_toNat p1 p2 p3 pt s, rfl, rfl, rfl, rfl, rfl⟩

/-! ### The PinSink -/

/-- A pin is an output after a row of events exactly if it was one or the row configures it and the PinSink accepts it. -/
theorem isOutputAt_acceptEvents_iff (q : Params) (k : PinSink) (evs : List PinEvent) (p : PinId) :
    isOutputAt (acceptEvents q k evs) p = true ↔
      isOutputAt k p = true ∨ (.config p ∈ evs ∧ pinValid q p = true) := by
  cases hp : pinValid q p with
  | true => simp [isOutputAt_acceptEvents_of_pinValid hp]
  | false => simp [isOutputAt_acceptEvents_of_not_pinValid hp]

/-- A row of PinConfigs sets `sink_fault` exactly if one of its pins is not accepted (20_memory.md R57). -/
theorem sinkFault_acceptEvents_configs (q : Params) (k : PinSink) (ps : List PinId) :
    (acceptEvents q k (ps.map .config)).sinkFault = true ↔ k.sinkFault = true ∨ ∃ p ∈ ps, pinValid q p = false := by
  induction ps generalizing k with
  | nil => simp
  | cons p ps ih =>
    rw [List.map_cons, acceptEvents_cons, ih, sinkFault_acceptEvent]
    simp [or_assoc]

/-- Settles O20, from the three readings of the PinSink after three PinConfigs. -/
theorem newDrivesNoPin : Obligations.NewDrivesNoPin := by
  unfold Obligations.NewDrivesNoPin
  intro s t p1 p2 p3 pt h
  obtain rfl := next_inj ((exec_new p1 p2 p3 pt s).symm.trans h)
  refine ⟨fun p => ?_, fun p => ?_, ?_⟩
  · exact levelAt_acceptEvents_of_no_write _ p _ _ (by simp)
  · exact (isOutputAt_acceptEvents_iff _ _ _ p).trans (by simp)
  · exact (sinkFault_acceptEvents_configs _ _ [p1, p2, p3]).trans (by simp)

/-! ### The patterns of this hardware -/

/-- Settles O21, from the pattern and the time step that NEW leaves: `DEFAULT_PATTERN` is SINGLE here. -/
theorem patternTableOfThisHardware : Obligations.PatternTableOfThisHardware := by
  unfold Obligations.PatternTableOfThisHardware
  intro s p1 p2 p3 pt hparams
  obtain ⟨t, hexec, hpattern, -, -, -, -, -, -, -, htime, -⟩ := newConstructs s p1 p2 p3 pt
  rw [hparams] at hpattern htime
  refine ⟨t, hexec, fun hpt => ?_, fun hpt => ?_⟩
  · rw [if_pos hpt] at hpattern
    obtain ⟨hsc, h1, h2, h3⟩ := hpattern
    rw [hsc] at htime ⊢
    exact ⟨rfl, rfl, h1, h2, h3, BitVec.eq_of_toNat_eq htime⟩
  · rw [if_neg hpt, show hardwareParams.defaultPattern = .single from rfl, ite_self] at hpattern
    obtain ⟨hsc, h1, h2, h3⟩ := hpattern
    rw [hsc] at htime ⊢
    exact ⟨rfl, rfl, h1, h2, h3, BitVec.eq_of_toNat_eq htime⟩

end Sys2Proof.Machine
end

section
/-! The clock and the gate (41_speed_gating.md R123 to R125), the two commands that set them (R120, R126), and a single step
command by its distance from the deadline (R129, R130). -/

namespace Sys2Proof.Machine

/-! ### The comparator -/

/-- A clock value has its sign bit clear exactly in the lower half of the clock's range. -/
theorem getLsbD_signBit_eq_false_iff {w : ClkWidth} {x : ClockWord} (hx : x.toNat < 2 ^ clockBits w) :
    x.getLsbD (clockBits w - 1) = false ↔ x.toNat < 2 ^ (clockBits w - 1) := by
  rw [BitVec.getLsbD, Nat.testBit_eq_decide_div_mod_eq, decide_eq_false_iff_not]
  cases w <;> simp only [clockBits] at * <;> omega

theorem due_iff_signBit (w : ClkWidth) (now d : ClockWord) :
    due w now d = true ↔ (subW w now d).getLsbD (clockBits w - 1) = false :=
  decide_eq_true_iff.trans (getLsbD_signBit_eq_false_iff (wrap_lt w _)).symm

/-- At true times within half the clock's range of each other the comparator tells whether the deadline is reached. -/
theorem due_wrap_iff {w : ClkWidth} {tn td : Int} (hlo : -(2 ^ (clockBits w - 1)) ≤ tn - td)
    (hhi : tn - td < 2 ^ (clockBits w - 1)) : due w (wrap w tn) (wrap w td) = true ↔ td ≤ tn := by
  rw [due_iff_mod, wrap_toNat, wrap_toNat, ← Int.sub_emod]
  cases w <;> simp only [clockBits] at * <;> omega

/-- A clock `x` past a deadline, in whatever container, reads as due in the lower half of the range only. -/
theorem due_sampleAt_add_iff {w : ClkWidth} {x : Nat} (hx : x < 2 ^ clockBits w) (d : ClockWord) :
    due w (sampleAt w (d.toNat + x)) d = true ↔ x < 2 ^ (clockBits w - 1) := by
  rw [due_iff_mod, wrap_toNat, Int.emod_sub_emod, Nat.cast_add, add_sub_cancel_left,
    Int.emod_eq_of_lt (by positivity) (by exact_mod_cast hx)]
  exact_mod_cast Iff.rfl

/-- Settles O26: the comparator as numbers, by the sign bit, at the deadline, and on true times. -/
theorem comparatorIsWraparoundSafe : Obligations.ComparatorIsWraparoundSafe := by
  unfold Obligations.ComparatorIsWraparoundSafe
  intro w
  refine ⟨due_iff_mod w, due_iff_signBit w, fun now => ?_, fun tn td => due_wrap_iff⟩
  rw [due_iff_mod, sub_self, Int.zero_emod]
  positivity

/-! ### The gate and the time step -/

/-- Settles O27, by the three ways of the gate. -/
theorem gateVerdict : Obligations.GateVerdict := by
  unfold Obligations.GateVerdict
  intro s
  rcases shouldUpdate_cases s with ⟨hoff, h⟩ | ⟨hon, hdue, h⟩ | ⟨hon, hlate, h⟩
  · exact ⟨fun _ => h, by simp [hoff], by simp [hoff]⟩
  · exact ⟨by simp [hon], fun _ _ => ⟨_, addW_toNat_nat _ _ _, h⟩, by simp [hdue]⟩
  · exact ⟨by simp [hon], by simp [hlate], fun _ _ => h⟩

/-- The two divisions of 41_speed_gating.md R121 as one. -/
theorem timeStepOf_eq_div_mul (rpm sc : Nat) : timeStepOf rpm sc = 60000000 / (rpm * sc) := Nat.div_div_eq_div_mul _ _ _

/-- Settles O23, from the one division; it is 0 where the divisor exceeds a minute. -/
theorem timeStepRange : Obligations.TimeStepRange := by
  unfold Obligations.TimeStepRange
  intro rpm hrpm sc hsc
  have hpos : 0 < rpm * sc := by
    have : 0 < sc := by omega
    positivity
  refine ⟨rfl, ?_, timeStepOf_eq_div_mul rpm sc, ?_⟩
  · have hmin : 3 ≤ rpm * sc := by
      rcases hsc with rfl | rfl <;> omega
    rw [timeStepOf_eq_div_mul]
    exact Nat.div_le_div_left hmin (by decide)
  · rw [timeStepOf_eq_div_mul, Nat.div_eq_zero_iff_lt hpos]
    rcases hsc with rfl | rfl <;> simp <;> omega

/-! ### SET_SPEED and SET_SPEED_CONTROL -/

/-- A configured block runs every command past the check of R202. -/
theorem exec_of_configured (i : Instr) {s : State} (hc : s.regs.configured = true) : exec i s = .next (effect i s) := by
  rw [exec_eq_effect, if_neg (by simp [hc])]

/-- Settles O24, by the check of R202 and the sign of the speed. -/
theorem setSpeedReanchors : Obligations.SetSpeedReanchors := by
  unfold Obligations.SetSpeedReanchors
  intro s rpm
  refine ⟨fun hc => exec_of_unconfigured hc rfl, fun hc hrpm => ?_, fun hc hrpm => ?_⟩
  · rw [exec_of_configured _ hc, effect_setSpeed_rejected hrpm]
    rfl
  · rw [exec_of_configured _ hc, effect_setSpeed_anchored (by omega)]
    exact ⟨_, rfl, rfl, wrap_timeStepOf_toNat _ _ _, addW_toNat_nat _ _ _, rfl, rfl, rfl, rfl, rfl⟩

/-- Settles O25, by the check of R202. -/
theorem setSpeedControlWritesTheFlag : Obligations.SetSpeedControlWritesTheFlag := by
  unfold Obligations.SetSpeedControlWritesTheFlag
  exact fun s en => ⟨fun hc => exec_of_unconfigured hc rfl, exec_of_configured _⟩

/-! ### One step command by its distance from the deadline -/

/-- Settles O31: in the upper half of the range the gate is closed. -/
theorem comparatorRangeStall : Obligations.ComparatorRangeStall := by
  unfold Obligations.ComparatorRangeStall
  intro s x i hi hc hon hhalf hx hnow
  obtain ⟨ring, hexec⟩ := exec_of_isStep hi hc
  have hclosed : ¬(s.regs.speedControl = true → due s.params.clkW s.now s.regs.nextUpdate = true) := by
    rw [hnow, due_sampleAt_add_iff hx]
    exact fun h => absurd (h hon) (by omega)
  rw [hexec, stepRing_of_closed ring hclosed]
  rfl

/-- A clock value of the clock's width is the sample of its own number. -/
theorem sampleAt_toNat {w : ClkWidth} {d : ClockWord} (h : d.toNat < 2 ^ clockBits w) : sampleAt w d.toNat = d :=
  BitVec.eq_of_toNat_eq (wrap_toNat_of_lt w _ h)

/-- The deadline moved on by a time step is the sample of the true sum. -/
theorem addW_sampleAt (w : ClkWidth) (d : Nat) (T : ClockWord) :
    addW w (sampleAt w d) T = sampleAt w (d + T.toNat) := by
  apply wrap_eq_wrap
  rw [wrap_toNat, Int.emod_add_emod, Nat.cast_add]

theorem addW_zero {w : ClkWidth} {d : ClockWord} (h : d.toNat < 2 ^ clockBits w) : addW w d 0#64 = d := by
  conv_lhs => rw [← sampleAt_toNat h, addW_sampleAt]
  exact sampleAt_toNat h

/-- Settles O32: in the lower half of the range the gate is open, and the deadline moves on by nothing. -/
theorem zeroTimeStepStepsOnEveryCall : Obligations.ZeroTimeStepStepsOnEveryCall := by
  unfold Obligations.ZeroTimeStepStepsOnEveryCall
  intro s x i hi hc hon hzero hd hx hnow
  obtain ⟨ring, hexec⟩ := exec_of_isStep hi hc
  have hrange : x < 2 ^ clockBits s.params.clkW := hx.trans_le (Nat.pow_le_pow_right (by decide) (Nat.sub_le _ _))
  have hopen : s.regs.speedControl = true → due s.params.clkW s.now s.regs.nextUpdate = true := fun _ => by
    rwa [hnow, due_sampleAt_add_iff hrange]
  refine ⟨_, _, hexec.trans (congrArg _ (stepRing_of_open ring hopen)), rfl, rfl, ?_⟩
  show movedRegs ring s = { s.regs with position := (movedRegs ring s).position }
  simp only [movedRegs, if_pos hon, hzero, addW_zero hd]

end Sys2Proof.Machine
end

section
/-! Rows of gated step commands along true time (41_speed_gating.md R127, R128): what one call does, then a burst at one
clock value and a row at rising ones. -/

namespace Sys2Proof.Machine

/-- A configured block under speed control, with its clock width, its time step, and its deadline at true time `d`. -/
structure Gated (w : ClkWidth) (T : ClockWord) (d : Nat) (s : State) : Prop where
  width        : s.params.clkW = w
  configured   : s.regs.configured = true
  speedControl : s.regs.speedControl = true
  timeStep     : s.regs.timeStep = T
  deadline     : s.regs.nextUpdate = sampleAt w d

/-- The input that presents a step command at true time `t`. -/
abbrev stepCall (w : ClkWidth) (forward : Bool) (t : Nat) : HostInput := .command (stepWord forward) (sampleAt w t)

theorem decode_stepWord (forward : Bool) : decode (stepWord forward) = .ok (if forward then .stepFwd else .stepBwd) := by
  cases forward <;> rfl

theorem isStep_of_direction (forward : Bool) : isStep (if forward then .stepFwd else .stepBwd) = true := by
  cases forward <;> rfl

/-- A step command presented to a configured block is a ring step at the clock value it samples. -/
theorem step_of_stepCall {s : State} {w : ClkWidth} {forward : Bool} {t : Nat} {rest : List HostInput}
    (hc : s.regs.configured = true) (hs : s.host = stepCall w forward t :: rest) :
    ∃ ring, step s = .next (stepRing ring (beginTransaction (sampleAt w t) rest s)) := by
  rw [step_of_host_command s _ _ rest hs, decode_stepWord]
  exact exec_of_isStep (isStep_of_direction forward) hc

section
variable {w : ClkWidth} {T : ClockWord} {d t : Nat} {s : State}

/-- The gate of a block that samples true time `t` is open exactly where the deadline is reached. -/
theorem Gated.due_iff (h : Gated w T d s) (hnow : s.now = sampleAt w t) (hlo : d ≤ t + 2 ^ (clockBits w - 1))
    (hhi : t < d + 2 ^ (clockBits w - 1)) : due s.params.clkW s.now s.regs.nextUpdate = true ↔ d ≤ t := by
  have hlo' : (d : Int) ≤ t + 2 ^ (clockBits w - 1) := by exact_mod_cast hlo
  have hhi' : (t : Int) < d + 2 ^ (clockBits w - 1) := by exact_mod_cast hhi
  rw [h.width, hnow, h.deadline, due_wrap_iff (by linarith) (by linarith), Nat.cast_le]

/-- A step taken leaves the block gated, with the deadline moved on by a time step. -/
theorem Gated.movedRegs (h : Gated w T d s) (ring : BitVec 3 → PosWord → PosWord) :
    Gated w T (d + T.toNat) { s with regs := movedRegs ring s } where
  width := h.width
  configured := h.configured
  speedControl := h.speedControl
  timeStep := h.timeStep
  deadline := by
    show (if _ then _ else _) = _
    rw [if_pos h.speedControl, h.width, h.deadline, h.timeStep, addW_sampleAt]

theorem Gated.beginTransaction (h : Gated w T d s) (now : ClockWord) (rest : List HostInput) :
    Gated w T d (beginTransaction now rest s) := { h with }

theorem Gated.respond (h : Gated w T d s) (st : Status) (r : Bool) (evs : List PinEvent) :
    Gated w T d (respond st r evs s) := { h with }

/-- One call at true time `t`, in the comparator's range of the deadline: a step, and the deadline moved on, exactly where
the deadline is reached. -/
theorem Gated.step_call (h : Gated w T d s) {forward : Bool} {rest : List HostInput}
    (hs : s.host = stepCall w forward t :: rest) (hlo : d ≤ t + 2 ^ (clockBits w - 1))
    (hhi : t < d + 2 ^ (clockBits w - 1)) :
    ∃ u o, step s = .next u ∧ u.obs = s.obs ++ [o] ∧ u.host = rest ∧
      (d ≤ t ∧ o.resp = 0x04#8 ∧ Gated w T (d + T.toNat) u ∨ t < d ∧ o.resp = 0x00#8 ∧ Gated w T d u) := by
  obtain ⟨ring, hstep⟩ := step_of_stepCall h.configured hs
  have hbegin := h.beginTransaction (sampleAt w t) rest
  have hdue := hbegin.due_iff (t := t) (by rw [beginTransaction_now, h.width, wrap_wrap]) hlo hhi
  by_cases hreach : d ≤ t
  · rw [stepRing_of_open ring fun _ => hdue.mpr hreach] at hstep
    exact ⟨_, _, hstep, rfl, rfl, .inl ⟨hreach, rfl, (hbegin.movedRegs ring).respond _ _ _⟩⟩
  · rw [stepRing_of_closed ring fun hopen => hreach (hdue.mp (hopen h.speedControl))] at hstep
    exact ⟨_, _, hstep, rfl, rfl, .inr ⟨by omega, rfl, hbegin.respond _ _ _⟩⟩

/-- A burst at one clock value: as long as the deadline does not pass that value, every call takes a step. -/
theorem Gated.run_burst (h : Gated w T d s) {dirs : List Bool} {rest : List HostInput}
    (hs : s.host = dirs.map (fun f => stepCall w f t) ++ rest) (hlate : t < d + 2 ^ (clockBits w - 1))
    (hdue : d + dirs.length * T.toNat ≤ t + T.toNat) :
    ∃ u os, runSteps dirs.length s = .next u ∧ u.obs = s.obs ++ os ∧ os.length = dirs.length ∧
      (∀ o ∈ os, o.resp = 0x04#8) ∧ Gated w T (d + dirs.length * T.toNat) u := by
  induction dirs generalizing s d with
  | nil => exact ⟨s, [], rfl, by simp, rfl, by simp, by simpa using h⟩
  | cons f dirs ih =>
    rw [List.length_cons, Nat.succ_mul] at hdue
    obtain ⟨u, o, hstep, hobs, hhost, ⟨-, hresp, hu⟩ | ⟨hearly, -⟩⟩ := h.step_call hs (by omega) hlate
    · obtain ⟨v, os, hrun, hobs', hlen, hall, hv⟩ := ih hu hhost (by omega) (by omega)
      refine ⟨v, o :: os, (runSteps_succ_next _ s u hstep).trans hrun, ?_, congrArg Nat.succ hlen, ?_, ?_⟩
      · rw [hobs', hobs, List.append_assoc, List.singleton_append]
      · exact List.forall_mem_cons.mpr ⟨hresp, hall⟩
      · rwa [List.length_cons, Nat.succ_mul, Nat.add_comm (_ * _), ← Nat.add_assoc]
    · omega

/-- A row of calls at rising true times, the deadline one time step after `b` and no call before `b`: `b` moves on by a time
step with every step taken, and never past the last call. -/
theorem Gated.run_row {b t₀ : Nat} (h : Gated w T (b + T.toNat) s) (hT : T.toNat ≤ 2 ^ (clockBits w - 1)) (hb : b ≤ t₀)
    {calls : List (Bool × Nat)} {rest : List HostInput}
    (hs : s.host = calls.map (fun c => stepCall w c.1 c.2) ++ rest)
    (hmono : clockMonotone w (t₀ :: calls.map Prod.snd) = true)
    (hrange : ∀ c ∈ calls, c.2 < b + T.toNat + 2 ^ (clockBits w - 1)) :
    ∃ u os, runSteps calls.length s = .next u ∧ u.obs = s.obs ++ os ∧ os.length = calls.length ∧ u.host = rest ∧
      Gated w T (b + (os.countP tookStep + 1) * T.toNat) u ∧
      b + os.countP tookStep * T.toNat ≤ (calls.map Prod.snd).getLastD t₀ := by
  induction calls generalizing s b t₀ with
  | nil => exact ⟨s, [], rfl, by simp, rfl, hs, by simpa using h, by simpa using hb⟩
  | cons c calls ih =>
    obtain ⟨f, t⟩ := c
    obtain ⟨hnow, hlater⟩ := List.forall_mem_cons.mp hrange
    simp only [List.map_cons, clockMonotone, Bool.and_eq_true, decide_eq_true_eq] at hmono
    obtain ⟨⟨hle, -⟩, hmono⟩ := hmono
    obtain ⟨u, o, hstep, hobs, hhost, hcall⟩ := h.step_call hs (by omega) hnow
    obtain ⟨b', hb', hbt, hu, hcount⟩ : ∃ b', b ≤ b' ∧ b' ≤ t ∧ Gated w T (b' + T.toNat) u ∧
        ∀ os, b' + os.countP tookStep * T.toNat = b + (o :: os).countP tookStep * T.toNat := by
      rcases hcall with ⟨hreach, hresp, hu⟩ | ⟨-, hresp, hu⟩
      · refine ⟨b + T.toNat, by omega, hreach, hu, fun os => ?_⟩
        rw [List.countP_cons_of_pos (by simp [tookStep, hresp])]
        ring
      · refine ⟨b, le_rfl, by omega, hu, fun os => ?_⟩
        rw [List.countP_cons_of_neg (by simp [tookStep, hresp])]
    obtain ⟨v, os, hrun, hobs', hlen, hrest, hv, hlast⟩ := ih hu hbt hhost hmono fun c hc => by
      have := hlater c hc
      omega
    refine ⟨v, o :: os, (runSteps_succ_next _ s u hstep).trans hrun, ?_, congrArg Nat.succ hlen, hrest, ?_, ?_⟩
    · rw [hobs', hobs, List.append_assoc, List.singleton_append]
    · rwa [Nat.succ_mul, ← Nat.add_assoc, ← hcount, Nat.add_assoc, ← Nat.succ_mul]
    · rwa [← hcount, List.map_cons, List.getLastD_cons]

end

/-- Settles O29: `L div T + 1` time steps from the deadline reach at most one time step past the clock. -/
theorem lateCallsCatchUp : Obligations.LateCallsCatchUp := by
  unfold Obligations.LateCallsCatchUp
  intro s L dirs now rest hc hon _ hd hL hnow hs hlen
  subst hnow
  have hgated : Gated s.params.clkW s.regs.timeStep s.regs.nextUpdate.toNat s :=
    ⟨rfl, hc, hon, rfl, (sampleAt_toNat hd).symm⟩
  have hburst : dirs.length * s.regs.timeStep.toNat ≤ L + s.regs.timeStep.toNat :=
    calc dirs.length * s.regs.timeStep.toNat
        ≤ (L / s.regs.timeStep.toNat + 1) * s.regs.timeStep.toNat := Nat.mul_le_mul_right _ hlen
      _ = L / s.regs.timeStep.toNat * s.regs.timeStep.toNat + s.regs.timeStep.toNat := Nat.succ_mul _ _
      _ ≤ L + s.regs.timeStep.toNat := Nat.add_le_add_right (Nat.div_mul_le_self _ _) _
  obtain ⟨u, os, hrun, hobs, hlen, hall, hu⟩ := hgated.run_burst hs (by omega) (by omega)
  exact ⟨u, os, hrun, hobs, hlen, hall, hu.deadline⟩

/-- Settles O30, by the row of calls from the anchor on. -/
theorem gatedStepsKeepThePace : Obligations.GatedStepsKeepThePace := by
  unfold Obligations.GatedStepsKeepThePace
  intro s a calls rest hc hon hT hd hs hmono hrange
  have hhalf : s.regs.timeStep.toNat ≤ 2 ^ (clockBits s.params.clkW - 1) := by
    cases s.params.clkW <;> simp only [clockBits] <;> omega
  have hgated : Gated s.params.clkW s.regs.timeStep (a + s.regs.timeStep.toNat) s := ⟨rfl, hc, hon, rfl, hd⟩
  obtain ⟨u, os, hrun, hobs, hlen, hhost, hu, hlast⟩ := hgated.run_row hhalf le_rfl hs hmono hrange
  refine ⟨u, os, hrun, hobs, hlen, hhost, hu.timeStep, hu.deadline, fun c hcall => ?_⟩
  have hpace : a + os.countP tookStep * s.regs.timeStep.toNat ≤ c.2 := by
    simpa [List.getLastD_eq_getLast?, hcall] using hlast
  exact ⟨hpace, fun hpos => (Nat.le_div_iff_mul_le hpos).mpr (Nat.le_sub_of_add_le' hpace)⟩

end Sys2Proof.Machine
end

section
/-! The ring as a cycle of ring indexes (42_stepping.md R144): a function that moves every index on by a fixed distance, its
iterates, and its inverse. -/

namespace Sys2Proof.Machine

/-- `f` moves every position of a ring of `n` positions `d` indexes on, wrapping at `n`. -/
def MovesBy (n d : Nat) (f : PosWord → PosWord) : Prop :=
  ∀ i, i < n → f (BitVec.ofNat 8 (1 <<< i)) = BitVec.ofNat 8 (1 <<< ((i + d) % n))

theorem ringFwd_movesBy {sc : BitVec 3} (hsc : sc = 3#3 ∨ sc = 6#3) : MovesBy sc.toNat 1 (ringFwd sc) :=
  fun i hi => ringFwd_index sc i hsc hi

/-- One index down is `step_count - 1` indexes up. -/
theorem ringBwd_movesBy {sc : BitVec 3} (hsc : sc = 3#3 ∨ sc = 6#3) : MovesBy sc.toNat (sc.toNat - 1) (ringBwd sc) :=
  fun i hi => by rw [ringBwd_index sc i hsc hi, Nat.add_sub_assoc (by omega)]

section
variable {n d e i : Nat} {f g : PosWord → PosWord}

theorem MovesBy.iterate (hf : MovesBy n d f) (hi : i < n) (k : Nat) :
    f^[k] (BitVec.ofNat 8 (1 <<< i)) = BitVec.ofNat 8 (1 <<< ((i + k * d) % n)) := by
  induction k with
  | zero => simp [Nat.mod_eq_of_lt hi]
  | succ k ih =>
    rw [Function.iterate_succ_apply', ih, hf _ (Nat.mod_lt _ (by omega)), Nat.mod_add_mod, Nat.succ_mul, Nat.add_assoc]

/-- As many moves as there are positions lead back. -/
theorem MovesBy.iterate_self (hf : MovesBy n d f) (hi : i < n) :
    f^[n] (BitVec.ofNat 8 (1 <<< i)) = BitVec.ofNat 8 (1 <<< i) := by
  rw [hf.iterate hi, Nat.add_mul_mod_self_left, Nat.mod_eq_of_lt hi]

/-- Where the distance is coprime to the number of positions, fewer moves than that reach different positions. -/
theorem MovesBy.iterate_ne (hf : MovesBy n d f) (hn : n ≤ 8) (hd : n.Coprime d) (hi : i < n) {j k : Nat} (hjk : j < k)
    (hk : k < n) : f^[k] (BitVec.ofNat 8 (1 <<< i)) ≠ f^[j] (BitVec.ofNat 8 (1 <<< i)) := by
  rw [hf.iterate hi, hf.iterate hi]
  intro h
  have hpos : 0 < n := by omega
  have hmod : i + k * d ≡ i + j * d [MOD n] :=
    position_index_inj _ _ ((Nat.mod_lt _ hpos).trans_le hn) ((Nat.mod_lt _ hpos).trans_le hn) h
  have hkj : k ≡ j [MOD n] := (hmod.add_left_cancel' i).cancel_right_of_coprime hd
  exact hjk.ne' (hkj.eq_of_lt_of_lt hk (hjk.trans hk))

/-- Two moves whose distances add up to the whole ring undo each other. -/
theorem MovesBy.cancel (hf : MovesBy n d f) (hg : MovesBy n e g) (hde : d + e = n) (hi : i < n) :
    g (f (BitVec.ofNat 8 (1 <<< i))) = BitVec.ofNat 8 (1 <<< i) := by
  rw [hf i hi, hg _ (Nat.mod_lt _ (by omega)), Nat.mod_add_mod, Nat.add_assoc, hde, Nat.add_mod_right,
    Nat.mod_eq_of_lt hi]

end

/-- Settles O37: both ring functions move by a distance coprime to the step count. -/
theorem ringCycle : Obligations.RingCycle := by
  unfold Obligations.RingCycle
  intro sc i k hsc hi
  have hfwd := ringFwd_movesBy hsc
  have hbwd := ringBwd_movesBy hsc
  have hn : sc.toNat ≤ 8 := sc.isLt.le
  have hcoprime : sc.toNat.Coprime (sc.toNat - 1) := by rcases hsc with rfl | rfl <;> decide
  refine ⟨?_, hbwd.iterate hi k, hfwd.iterate_self hi, hbwd.iterate_self hi, fun _ hk j hj => ⟨?_, ?_⟩⟩
  · rw [hfwd.iterate hi, Nat.mul_one]
  · exact hfwd.iterate_ne hn (Nat.coprime_one_right _) hi hj hk
  · exact hbwd.iterate_ne hn hcoprime hi hj hk

/-- Settles O39, row by row of the table. -/
theorem ringAndLevelTable : Obligations.RingAndLevelTable := by
  unfold Obligations.RingAndLevelTable
  dsimp only
  decide

end Sys2Proof.Machine
end

section
/-! STEP_FWD and STEP_BWD (42_stepping.md R140, R142): at a closed gate, at an open one, while released, and one after the
other. -/

namespace Sys2Proof.Machine

/-- The ring function of a step command. `exec_eq_stepRing_ringOf` ties it to `exec`. -/
def ringOf (i : Instr) : BitVec 3 → PosWord → PosWord := if i = .stepFwd then ringFwd else ringBwd

theorem exec_eq_stepRing_ringOf {i : Instr} {s : State} (hi : isStep i = true) (hc : s.regs.configured = true) :
    exec i s = .next (stepRing (ringOf i) s) := by
  rcases isStep_cases i hi with rfl | rfl
  · exact exec_of_configured _ hc
  · exact exec_of_configured _ hc

/-- A step command at a closed gate only answers. -/
theorem exec_of_closed_gate {i : Instr} {s : State} (hi : isStep i = true) (hc : s.regs.configured = true)
    (hon : s.regs.speedControl = true) (hlate : due s.params.clkW s.now s.regs.nextUpdate = false) :
    exec i s = .next (respond .ok false [] s) := by
  rw [exec_eq_stepRing_ringOf hi hc, stepRing_of_closed _ (by simp [hon, hlate])]

/-- A step command at an open gate moves the registers and runs the mux at the new ones. -/
theorem exec_of_open_gate {i : Instr} {s : State} (hi : isStep i = true) (hc : s.regs.configured = true)
    (hopen : s.regs.speedControl = true → due s.params.clkW s.now s.regs.nextUpdate = true) :
    exec i s = .next (respond .ok true (applyEvents (movedRegs (ringOf i) s)) { s with regs := movedRegs (ringOf i) s }) := by
  rw [exec_eq_stepRing_ringOf hi hc, stepRing_of_open _ hopen]

theorem movedRegs_nextUpdate_of_gated (ring : BitVec 3 → PosWord → PosWord) {s : State}
    (h : s.regs.speedControl = true) : (movedRegs ring s).nextUpdate.toNat =
      (s.regs.nextUpdate.toNat + s.regs.timeStep.toNat) % 2 ^ clockBits s.params.clkW := by
  rw [← addW_toNat_nat]
  simp [movedRegs, h]

/-- Settles O34, by the check of R202 and the two ways of the gate. -/
theorem stepFwdGatesMovesAndDrives : Obligations.StepFwdGatesMovesAndDrives := by
  unfold Obligations.StepFwdGatesMovesAndDrives
  intro s
  refine ⟨fun hc => exec_of_unconfigured hc rfl, exec_of_closed_gate rfl, fun i hc hsc ⟨hi, hpos⟩ hopen => ?_⟩
  have hmoved := (congrArg (ringFwd _) hpos).trans (ringFwd_index _ i hsc hi)
  exact ⟨_, _, exec_of_open_gate rfl hc hopen, hmoved, rfl, movedRegs_nextUpdate_of_ungated _,
    movedRegs_nextUpdate_of_gated _, rfl, rfl, rfl, rfl, rfl, rfl⟩

/-- Settles O35, as O34 with the other ring function. -/
theorem stepBwdGatesMovesAndDrives : Obligations.StepBwdGatesMovesAndDrives := by
  unfold Obligations.StepBwdGatesMovesAndDrives
  intro s
  refine ⟨fun hc => exec_of_unconfigured hc rfl, exec_of_closed_gate rfl, fun i hc hsc ⟨hi, hpos⟩ hopen => ?_⟩
  have hmoved := (congrArg (ringBwd _) hpos).trans (ringBwd_index _ i hsc hi)
  exact ⟨_, _, exec_of_open_gate rfl hc hopen, hmoved, rfl, movedRegs_nextUpdate_of_ungated _,
    movedRegs_nextUpdate_of_gated _, rfl, rfl, rfl, rfl, rfl, rfl⟩

/-- Settles O36: the mux emits nothing while released (43_phase_output.md R160). -/
theorem releasedStepMovesUnseen : Obligations.ReleasedStepMovesUnseen := by
  unfold Obligations.ReleasedStepMovesUnseen
  intro s i hi hc hrel hopen
  have hquiet : applyEvents (movedRegs (ringOf i) s) = [] := applyEvents_released _ hrel
  refine ⟨_, exec_of_open_gate hi hc hopen, ?_⟩
  rw [hquiet]
  refine ⟨rfl, rfl, ?_, rfl, rfl, rfl⟩
  rcases isStep_cases i hi with rfl | rfl <;> rfl

theorem movedRegs_of_ungated (ring : BitVec 3 → PosWord → PosWord) {s : State} (h : s.regs.speedControl = false) :
    movedRegs ring s = { s.regs with position := ring s.regs.stepCount s.regs.position } := by
  rw [movedRegs, if_neg (by simp [h])]

/-- Without speed control a move forward and then a move backward restore every register. -/
theorem movedRegs_bwd_fwd {s t : State} (hoff : s.regs.speedControl = false) (ht : t.regs = movedRegs ringFwd s)
    (hback : ringBwd s.regs.stepCount (ringFwd s.regs.stepCount s.regs.position) = s.regs.position) :
    movedRegs ringBwd t = s.regs := by
  rw [movedRegs_of_ungated ringFwd hoff] at ht
  rw [movedRegs_of_ungated ringBwd (by rw [ht]; exact hoff), ht]
  simp only [hback]

/-- Settles O38: one index up and `step_count - 1` up are once round the ring. -/
theorem stepThereAndBack : Obligations.StepThereAndBack := by
  unfold Obligations.StepThereAndBack
  intro s i hc hoff hsc ⟨hi, hpos⟩
  have hfwd := ringFwd_movesBy hsc
  have hbwd := ringBwd_movesBy hsc
  have hback : ringBwd s.regs.stepCount (ringFwd s.regs.stepCount s.regs.position) = s.regs.position := by
    rw [hpos, hfwd.cancel hbwd (by omega) hi]
  have hforth : ringFwd s.regs.stepCount (ringBwd s.regs.stepCount s.regs.position) = s.regs.position := by
    rw [hpos, hbwd.cancel hfwd (by omega) hi]
  obtain ⟨t, hexec, ht⟩ : ∃ t, exec .stepFwd s = .next t ∧ t.regs = movedRegs ringFwd s :=
    ⟨_, exec_of_open_gate rfl hc (by simp [hoff]), rfl⟩
  have hrestored : movedRegs (ringOf .stepBwd) t = s.regs := movedRegs_bwd_fwd hoff ht hback
  have hct : t.regs.configured = true := by rw [ht]; exact hc
  have hofft : t.regs.speedControl = false := by rw [ht]; exact hoff
  refine ⟨hback, hforth, t, _, hexec, exec_of_open_gate rfl hct (by simp [hofft]), hrestored, ?_⟩
  rw [hrestored]
  rfl

end Sys2Proof.Machine
end

section
/-! RELEASE, RESUME and APPLY (43_phase_output.md): their outcomes, the levels their writes leave at the PinSink, the
levels of the patterns, and the pins of a released block along a run. -/

namespace Sys2Proof.Machine

/-! ### The three commands -/

/-- Settles O40, by the check of R202 and the two cases of the mux. -/
theorem applyDrivesThePhase : Obligations.ApplyDrivesThePhase := by
  unfold Obligations.ApplyDrivesThePhase
  intro s
  refine ⟨fun hc => exec_of_unconfigured hc rfl, fun hc hrel => ?_, fun hc hrun => ⟨_, rfl, ?_⟩⟩
  · rw [exec_of_configured _ hc, effect, applyEvents_released _ hrel]
    rfl
  · rw [exec_of_configured _ hc, effect, applyEvents_running _ hrun]
    rfl

/-- Settles O42, by the check of R202. -/
theorem resumeWritesNoPin : Obligations.ResumeWritesNoPin := by
  unfold Obligations.ResumeWritesNoPin
  exact fun s => ⟨fun hc => exec_of_unconfigured hc rfl, exec_of_configured _⟩

/-! ### Three writes at the PinSink -/

/-- After three writes an accepted pin reads the last of those that name it (20_memory.md R56). -/
theorem levelAt_acceptEvents_three_writes {q : Params} {p : PinId} (hp : pinValid q p = true) (k : PinSink)
    (p1 p2 p3 : PinId) (l1 l2 l3 : Level) :
    levelAt (acceptEvents q k [.write p1 l1, .write p2 l2, .write p3 l3]) p =
      if p3 = p then some l3 else if p2 = p then some l2 else if p1 = p then some l1 else levelAt k p := by
  rw [levelAt_acceptEvents_of_pinValid hp]
  simp only [lastWrite, List.foldl]
  split_ifs <;> rfl

/-- What the mux of a running block leaves at its accepted pins: each reads the level of its phase unless a higher-numbered
phase names it too (43_phase_output.md R162). -/
theorem levelAt_applyEvents {q : Params} (k : PinSink) {r : Regs} (hrun : r.running = true)
    (h1 : pinValid q r.pin1 = true) (h2 : pinValid q r.pin2 = true) (h3 : pinValid q r.pin3 = true) :
    levelAt (acceptEvents q k (applyEvents r)) r.pin3 = some (levelOf (r.phase3 &&& r.position)) ∧
    (r.pin2 ≠ r.pin3 → levelAt (acceptEvents q k (applyEvents r)) r.pin2 = some (levelOf (r.phase2 &&& r.position))) ∧
    (r.pin1 ≠ r.pin2 → r.pin1 ≠ r.pin3 →
      levelAt (acceptEvents q k (applyEvents r)) r.pin1 = some (levelOf (r.phase1 &&& r.position))) := by
  rw [applyEvents_running r hrun]
  refine ⟨?_, fun h23 => ?_, fun h12 h13 => ?_⟩
  · rw [levelAt_acceptEvents_three_writes h3, if_pos rfl]
  · rw [levelAt_acceptEvents_three_writes h2, if_neg h23.symm, if_pos rfl]
  · rw [levelAt_acceptEvents_three_writes h1, if_neg h13.symm, if_neg h12.symm, if_pos rfl]

/-- Settles O41: RELEASE's own outcome, and each of its pins reads the LOW of the last write that names it. -/
theorem releaseDrivesAllLow : Obligations.ReleaseDrivesAllLow := by
  unfold Obligations.ReleaseDrivesAllLow
  intro s
  refine ⟨fun hc => exec_of_unconfigured hc rfl, fun hc => ⟨_, exec_of_configured _ hc, rfl, rfl, rfl,
    fun p hpin hvalid => ?_, rfl, rfl, rfl⟩⟩
  refine (levelAt_acceptEvents_three_writes hvalid ..).trans ?_
  rcases hpin with rfl | rfl | rfl <;> simp

/-- Settles O44, by the writes of the mux and what they leave at the pins. -/
theorem sharedPinShowsTheLastPhase : Obligations.SharedPinShowsTheLastPhase := by
  unfold Obligations.SharedPinShowsTheLastPhase
  intro s hc hrun h1 h2 h3
  exact ⟨_, _, exec_of_configured _ hc, rfl, applyEvents_running _ hrun, levelAt_applyEvents s.sink hrun h1 h2 h3⟩

/-- Settles O46: RESUME emits nothing, and the due step after it runs the mux at the position it reaches. -/
theorem resumeThenStepDrives : Obligations.ResumeThenStepDrives := by
  unfold Obligations.ResumeThenStepDrives
  intro s i hc hsc ⟨hi, hpos⟩ hdue h12 h13 h23 h1 h2 h3
  have hmoved := (congrArg (ringFwd _) hpos).trans (ringFwd_index _ i hsc hi)
  obtain ⟨hlevel3, hlevel2, hlevel1⟩ :=
    levelAt_applyEvents (r := movedRegs ringFwd (setRunning true s)) s.sink rfl h1 h2 h3
  exact ⟨_, _, exec_of_configured .resume hc, rfl, exec_of_open_gate rfl hc hdue, hmoved, hlevel1 h12 h13, hlevel2 h23,
    hlevel3⟩

/-! ### The levels of the patterns -/

/-- The levels of three masks at a position. `phaseLevels_eq_maskLevels` ties it to `phaseLevels`. -/
def maskLevels (m : Masks) (p : PosWord) : Level × Level × Level :=
  (levelOf (m.phase1 &&& p), levelOf (m.phase2 &&& p), levelOf (m.phase3 &&& p))

theorem phaseLevels_eq_maskLevels {q : Params} {r : Regs} {n : PatternName} (h : HoldsPattern q r n) :
    phaseLevels r = maskLevels (patternOf q n).masks r.position := by
  obtain ⟨-, h1, h2, h3⟩ := h
  rw [phaseLevels, h1, h2, h3, maskLevels]

/-- SINGLE drives exactly one phase at each of its three positions. -/
theorem maskLevels_single : ∀ i < 3, maskLevels maskSingle (BitVec.ofNat 8 (1 <<< i)) = (.high, .low, .low) ∨
    maskLevels maskSingle (BitVec.ofNat 8 (1 <<< i)) = (.low, .high, .low) ∨
    maskLevels maskSingle (BitVec.ofNat 8 (1 <<< i)) = (.low, .low, .high) := by decide

/-- The default OVERLAP masks leave none of the six positions without a phase. -/
theorem maskLevels_overlap_ne_low :
    ∀ i < 6, maskLevels maskOverlapDefault (BitVec.ofNat 8 (1 <<< i)) ≠ (.low, .low, .low) := by decide

/-- Settles O43, by the pattern the block holds. -/
theorem somePhaseIsAlwaysDriven : Obligations.SomePhaseIsAlwaysDriven := by
  unfold Obligations.SomePhaseIsAlwaysDriven
  intro s hinv hc hq
  obtain ⟨n, hn⟩ := hinv.pattern hc
  obtain ⟨i, hi, hpos⟩ := hinv.position hc
  have hsc : s.regs.stepCount = (patternOf s.params n).stepCount := hn.1
  rw [phaseLevels_eq_maskLevels hn, hpos]
  rw [hsc] at hi ⊢
  cases n with
  | single =>
    refine ⟨fun hlow => ?_, fun _ => maskLevels_single i hi⟩
    rcases maskLevels_single i hi with h | h | h <;> cases h.symm.trans hlow
  | overlap =>
    refine ⟨?_, fun h : stepCountOverlap = 3#3 => absurd h (by decide)⟩
    rw [show (patternOf s.params .overlap).masks = maskOverlapDefault from hq]
    exact maskLevels_overlap_ne_low i hi

/-! ### A released block along a run -/

/-- A host input that cannot end or repeat a release: a word that is no NEW, RELEASE or RESUME, and no reset. -/
def KeepsReleased (x : HostInput) : Prop :=
  ∃ cmd now, x = .command cmd now ∧ ∀ i, decode cmd = .ok i → isNew i = false ∧ i ≠ .release ∧ i ≠ .resume

/-- A released block emits nothing but by RELEASE and NEW, and stays released but by RESUME and NEW. -/
theorem Does.keeps_released {s t : State} {i : Instr} (h : Does s i t) (hrel : s.regs.running = false)
    (hn : isNew i = false) (hi : i ≠ .release) (hres : i ≠ .resume) : t.sink = s.sink ∧ t.regs.running = false := by
  obtain ⟨o, -, hsink, -, hsource⟩ := h.events hn
  have hnone : o.pinEv = [] := by simpa [hi, hrel] using hsource
  refine ⟨by rw [hsink, hnone, acceptEvents_nil], ?_⟩
  by_contra hne
  simpa [hn, hi, hres] using h.running_written (hrel ▸ hne)

theorem step_keeps_released {s t : State} (hrel : s.regs.running = false) (hhost : ∀ x ∈ s.host, KeepsReleased x)
    (h : step s = .next t) : t.sink = s.sink ∧ t.regs.running = false := by
  cases hs : s.host with
  | nil =>
    rw [step_of_host_nil s hs] at h
    obtain rfl := next_inj h
    exact ⟨rfl, hrel⟩
  | cons x rest =>
    obtain ⟨cmd, now, rfl, hcmd⟩ := hhost x (hs ▸ List.mem_cons_self)
    rcases step_command_cases hs h with ⟨i, hdec, hexec⟩ | rfl
    · obtain ⟨hn, hi, hres⟩ := hcmd i hdec
      exact (exec_does hexec).keeps_released hrel hn hi hres
    · exact ⟨rfl, hrel⟩

/-- Settles O45: every step keeps the PinSink and the release, by induction over the run. -/
theorem releasedPinsHold : Obligations.ReleasedPinsHold := by
  unfold Obligations.ReleasedPinsHold
  intro n
  induction n with
  | zero =>
    intro s t hrel _ h
    obtain rfl := next_inj h
    exact ⟨rfl, hrel⟩
  | succ n ih =>
    intro s t hrel hhost h
    obtain ⟨u, hstep, hrun⟩ := runSteps_succ_inv h
    obtain ⟨-, htail⟩ := stepTakesOneInput s u hstep
    obtain ⟨hsink, hrel'⟩ := step_keeps_released hrel hhost hstep
    obtain ⟨hsink', hrel''⟩ := ih u t hrel' (fun x hx => hhost x (List.mem_of_mem_tail (htail ▸ hx))) hrun
    exact ⟨hsink'.trans hsink, hrel''⟩

end Sys2Proof.Machine
end

section
/-! Which words are ILLEGAL (60_exceptions.md R203): those that the decoder rejects. -/

namespace Sys2Proof

/-- A word that R203 raises ILLEGAL: an unassigned opcode, or an assigned one with a reserved bit of its format set.
`exists_decode_iff` ties it to the decoder. -/
def IllegalWord (w : CmdWord) : Prop :=
  opcodeField w = 0x00#8 ∨ 0x09#8 ≤ opcodeField w ∨
    (opcodeField w = 0x01#8 ∧ w &&& 0x00FFFFFF00000000#64 ≠ 0#64) ∨
    (opcodeField w = 0x02#8 ∧ w &&& 0x00FFFFFF00000000#64 ≠ 0#64) ∨
    (opcodeField w = 0x03#8 ∧ w &&& 0x00FFFFFFFFFFFFFE#64 ≠ 0#64) ∨
    (0x04#8 ≤ opcodeField w ∧ opcodeField w ≤ 0x08#8 ∧ w &&& 0x00FFFFFFFFFFFFFF#64 ≠ 0#64)

/-- An opcode is unassigned or a row's (30_encoding.md R77, R78). -/
theorem unassigned_or_rowOpcode (op : BitVec 8) : op = 0x00#8 ∨ 0x09#8 ≤ op ∨ ∃ i, op = rowOpcode i := by
  have h : op = 0x00#8 ∨ 0x09#8 ≤ op ∨ op = 0x01#8 ∨ op = 0x02#8 ∨ op = 0x03#8 ∨ op = 0x04#8 ∨ op = 0x05#8 ∨
      op = 0x06#8 ∨ op = 0x07#8 ∨ op = 0x08#8 := by bv_omega
  refine h.imp_right (Or.imp_right ?_)
  rintro (rfl | rfl | rfl | rfl | rfl | rfl | rfl | rfl)
  · exact ⟨.new 0#8 0#8 0#8 0#8, rfl⟩
  · exact ⟨.setSpeed 0, rfl⟩
  · exact ⟨.setSpeedControl false, rfl⟩
  · exact ⟨.stepFwd, rfl⟩
  · exact ⟨.stepBwd, rfl⟩
  · exact ⟨.release, rfl⟩
  · exact ⟨.resume, rfl⟩
  · exact ⟨.apply, rfl⟩

/-- Under a row's opcode, only that row's reserved bits make a word illegal. -/
theorem illegalWord_of_opcode {w : CmdWord} {i : Instr} (h : opcodeField w = rowOpcode i) :
    IllegalWord w ↔ w &&& rowReserved i ≠ 0 := by
  cases i <;> simp [IllegalWord, h, rowOpcode, rowReserved, reservedN, reservedB, reservedS, reservedC]

/-- The words that decode are those that are not illegal. -/
theorem exists_decode_iff {w : CmdWord} : (∃ i, decode w = .ok i) ↔ ¬IllegalWord w := by
  constructor
  · rintro ⟨i, hdec⟩
    have hop := opcodeField_of_decode hdec
    rw [decode_of_opcode hop, unlessReserved_eq_ok_iff] at hdec
    simpa [illegalWord_of_opcode hop] using hdec.1
  · intro hlegal
    rcases unassigned_or_rowOpcode (opcodeField w) with h0 | h9 | ⟨i, hop⟩
    · exact absurd (.inl h0) hlegal
    · exact absurd (.inr (.inl h9)) hlegal
    · have hres : w &&& rowReserved i = 0 := by simpa [illegalWord_of_opcode hop] using hlegal
      exact ⟨_, by rw [decode_of_opcode hop, unlessReserved_eq_ok_iff]; exact ⟨hres, rfl⟩⟩

end Sys2Proof
end

section
/-! The status of a command and what a rejected one leaves (60_exceptions.md R201 to R205). -/

namespace Sys2Proof.Machine

/-- Settles O13, by the check of R202. -/
theorem unconfiguredBlockRejects : Obligations.UnconfiguredBlockRejects := by
  unfold Obligations.UnconfiguredBlockRejects
  exact fun s i hc hn => exec_of_unconfigured hc hn

/-- Settles O10: a word that does not decode is raised ILLEGAL, any other has the status its command answers. -/
theorem statusPriority : Obligations.StatusPriority := by
  unfold Obligations.StatusPriority
  intro s cmd now rest hs
  rw [step_of_host_command s cmd now rest hs]
  cases decode cmd with
  | error e => exact ⟨_, _, rfl, rfl, statusField_respWord .illegal false []⟩
  | ok i =>
    obtain ⟨t, ht⟩ := exec_next i (beginTransaction now rest s)
    obtain ⟨st, r, ⟨-, -, -, evs, hobs, -, -⟩, hst, -⟩ := exec_answers i _ t ht
    refine ⟨t, ⟨respWord st r, evs⟩, ht, hobs, ?_⟩
    rw [statusField_respWord, hst, apply_ite statusCode, apply_ite statusCode]
    rfl

/-- The status field of the response a command answers is its status. -/
theorem Answers.statusField_eq {s t : State} {st : Status} {r : Bool} {o : Observation} (h : Answers s t st r)
    (ho : t.obs = s.obs ++ [o]) : statusField o = statusCode st := by
  obtain ⟨-, -, -, evs, hobs, -, -⟩ := h
  obtain rfl := List.singleton_inj.mp (List.append_cancel_left (ho.symm.trans hobs))
  exact statusField_respWord st r evs

/-- A rejected command adds its response, which has no event, and leaves everything else. -/
theorem Answers.eq_of_rejected {s t : State} {st : Status} {r : Bool} {o : Observation} (h : Answers s t st r)
    (hst : st ≠ .ok) (ho : t.obs = s.obs ++ [o]) : o.pinEv = [] ∧ t = { s with obs := s.obs ++ [o] } := by
  obtain ⟨hparams, hnow, hhost, evs, hobs, hsink, hrejected⟩ := h
  obtain ⟨rfl, hregs⟩ := hrejected hst
  obtain rfl := List.singleton_inj.mp (List.append_cancel_left (ho.symm.trans hobs))
  rw [acceptEvents_nil] at hsink
  exact ⟨rfl, by rw [← hparams, ← hregs, ← hsink, ← hnow, ← hhost, ← hobs]⟩

/-- Settles O11: a status other than OK is a rejection. -/
theorem rejectedCommandHasNoEffect : Obligations.RejectedCommandHasNoEffect := by
  unfold Obligations.RejectedCommandHasNoEffect
  intro s t cmd now rest o hs hstep hobs hstatus
  obtain ⟨u, st, r, hstep', hans, -⟩ := step_answers hs
  obtain rfl := next_inj (hstep.symm.trans hstep')
  have hst : st ≠ .ok := by
    rintro rfl
    exact hstatus (hans.statusField_eq hobs)
  exact hans.eq_of_rejected hst hobs

/-- A word that is no command is raised ILLEGAL. -/
theorem step_of_illegalWord {s : State} {cmd : CmdWord} {now : ClockWord} {rest : List HostInput}
    (hs : s.host = .command cmd now :: rest) (h : IllegalWord cmd) :
    step s = .next (raise .illegal (beginTransaction now rest s)) := by
  rw [step_of_host_command s cmd now rest hs]
  cases hd : decode cmd with
  | error e => rfl
  | ok i => exact absurd h (exists_decode_iff.mp ⟨i, hd⟩)

/-- Settles O12: the illegal words are those the decoder rejects. -/
theorem illegalWordsAnswerIllegal : Obligations.IllegalWordsAnswerIllegal := by
  unfold Obligations.IllegalWordsAnswerIllegal
  intro s cmd now rest hs
  exact ⟨step_of_illegalWord hs, exists_decode_iff.mpr, (everyStepCompletes s).1⟩

end Sys2Proof.Machine
end

section
/-! Power-on reset (70_reset_and_hazards.md R230): what it leaves, and the invariant right after it. -/

namespace Sys2Proof.Machine

/-- Settles O17: the PinSink at power-on reads nothing at any pin, at the start and after the input alike. -/
theorem powerOnReset : Obligations.PowerOnReset := by
  unfold Obligations.PowerOnReset
  have hpins (p : PinId) : isOutputAt PinSink.reset p = false ∧ levelAt PinSink.reset p = none :=
    ⟨isOutputAt_reset p, levelAt_reset p⟩
  exact ⟨⟨rfl, rfl, hpins, rfl⟩, fun s rest hs => ⟨_, step_of_host_reset s rest hs, rfl, rfl, hpins, rfl, rfl, rfl⟩⟩

/-- The registers and the PinSink of power-on meet the invariant under admissible parameters and a sample of the clock's
width: the clauses of a configured block are void, and no pin is driven. -/
theorem inv_of_powerOn_values {s : State} (hregs : s.regs = Regs.reset) (hsink : s.sink = PinSink.reset)
    (hq : paramsAdmissible s.params = true) (hnow : s.now.toNat < 2 ^ clockBits s.params.clkW) : Inv s := by
  have hc : s.regs.configured ≠ true := by simp [hregs, Regs.reset]
  exact
    { params := hq
      pattern := fun h => absurd h hc
      position := fun h => absurd h hc
      masks := fun h => absurd h hc
      timeStep := by simp [hregs, Regs.reset]
      deadline := by simp [hregs, Regs.reset]
      sample := hnow
      canonical := hsink ▸ PinSink.reset_wf
      pins := fun h => absurd h hc
      driven := fun p hp => absurd (hsink ▸ levelAt_reset p) hp }

/-- `PIN_VALID` is no part of what the spec asks of the parameters. -/
theorem paramsAdmissible_with_validPins (q : Params) (v : List PinId) :
    paramsAdmissible { q with validPins := v } = paramsAdmissible q := rfl

theorem hardwareParams_admissible : paramsAdmissible hardwareParams = true := by decide

/-- The invariant asks nothing of `PIN_VALID` or of the inputs to come. -/
theorem reset_inv (v : List PinId) (h : List HostInput) :
    Inv { State.reset with params := { hardwareParams with validPins := v }, host := h } :=
  inv_of_powerOn_values rfl rfl
    ((paramsAdmissible_with_validPins _ v).trans hardwareParams_admissible) (show 0 < 2 ^ 32 by decide)

/-- Settles O56: State.reset has this hardware's own `PIN_VALID` and no inputs. -/
theorem resetMeetsTheInvariant : Obligations.ResetMeetsTheInvariant := by
  unfold Obligations.ResetMeetsTheInvariant
  exact fun v h => ⟨reset_inv v h, reset_inv Config.validPins []⟩

end Sys2Proof.Machine
end

section
/-! Hazards of a program (70_reset_and_hazards.md): the first step after a NEW (R241) and a SET_SPEED given again too soon
(R246). -/

namespace Sys2Proof.Machine

/-- A STEP_FWD without speed control moves ring index 0 to ring index 1. -/
theorem movedRegs_fwd_of_first {s : State} (hoff : s.regs.speedControl = false)
    (hsc : s.regs.stepCount = 3#3 ∨ s.regs.stepCount = 6#3) (hpos : s.regs.position = 1#8) :
    movedRegs ringFwd s = { s.regs with position := 2#8 } := by
  have hring : ringFwd s.regs.stepCount 1#8 = 2#8 := by
    rcases hsc with h | h <;> rw [h] <;> decide
  rw [movedRegs_of_ungated _ hoff, hpos, hring]

/-- Settles O22: NEW leaves speed control off, the block running and position 1, so the step is taken and drives the next
position. -/
theorem firstStepDrivesPositionTwo : Obligations.FirstStepDrivesPositionTwo := by
  unfold Obligations.FirstStepDrivesPositionTwo
  intro s t p1 p2 p3 pt h
  obtain rfl := next_inj ((exec_new p1 p2 p3 pt s).symm.trans h)
  refine ⟨_, exec_of_open_gate rfl rfl nofun, ?_⟩
  have hmoved := movedRegs_fwd_of_first (s := respond .ok false [.config p1, .config p2, .config p3]
    (newRegisters p1 p2 p3 pt s)) rfl (patternOf_stepCount _ _) rfl
  rw [show ringOf .stepFwd = ringFwd from rfl, hmoved]
  exact ⟨rfl, rfl⟩

/-- A clock less than one time step past the sample of a re-anchor has not reached the deadline: their distance, at most
20 seconds, lies in the comparator's range (41_speed_gating.md R122, R124). -/
theorem due_reanchored_eq_false {w : ClkWidth} {now T : ClockWord} {e : Nat} (hT : T.toNat ≤ 20000000) (he : e < T.toNat) :
    due w (sampleAt w (now.toNat + e)) (addW w now T) = false := by
  have hrange : (20000000 : Int) ≤ 2 ^ (clockBits w - 1) := by cases w <;> decide
  rw [addW, sampleAt, Nat.cast_add, Bool.eq_false_iff, Ne, due_wrap_iff (by omega) (by omega)]
  omega

/-- Settles O33: SET_SPEED re-anchors at its sample, and the gate is closed until a time step has passed. -/
theorem repeatedSetSpeedStarves : Obligations.RepeatedSetSpeedStarves := by
  unfold Obligations.RepeatedSetSpeedStarves
  intro s t rpm e i hi hc hon hsc hrpm hexec he
  rw [exec_of_configured _ hc, effect_setSpeed_anchored (by omega)] at hexec
  obtain rfl := next_inj hexec
  exact exec_of_closed_gate hi hc hon (due_reanchored_eq_false (wrap_timeStepOf_le _ _ hsc) he)

end Sys2Proof.Machine
end

section
/-! The encoder inverts the decoder (30_encoding.md R79): a command's word is its row's fixed bits over its operands. -/

namespace Sys2Proof

/-- A match of all bits from `n` up fixes them and no other. -/
theorem and_highMask_eq_iff {m n : Nat} (w : BitVec (m + n)) (a : BitVec m) :
    w &&& (BitVec.allOnes m ++ 0#n) = a ++ 0#n ↔ w.extractLsb' n m = a := by
  conv_lhs => rw [← BitVec.extractLsb'_append_extractLsb' (x := w), BitVec.and_append, append_inj_iff]
  simp

/-- A word equals high bits over low ones where it holds both. -/
theorem append_eq_iff {m n : Nat} {a : BitVec m} {b : BitVec n} {w : BitVec (m + n)} :
    a ++ b = w ↔ w.extractLsb' n m = a ∧ w.extractLsb' 0 n = b := by
  conv_lhs => rw [← BitVec.extractLsb'_append_extractLsb' (x := w), append_inj_iff, eq_comm, eq_comm (a := b)]

/-- A word as format C cuts it: its high half over the pattern type and the pins (30_encoding.md R74). -/
theorem newFields_append (w : CmdWord) :
    w.extractLsb' 32 32 ++ w.extractLsb' 24 8 ++ w.extractLsb' 16 8 ++ w.extractLsb' 8 8 ++ w.extractLsb' 0 8 = w := by
  rw [BitVec.extractLsb'_append_extractLsb'_eq_extractLsb' (start₁ := 24) (len₁ := 8) rfl,
    BitVec.extractLsb'_append_extractLsb'_eq_extractLsb' (start₁ := 16) (len₁ := 8) rfl,
    BitVec.extractLsb'_append_extractLsb'_eq_extractLsb' (start₁ := 8) (len₁ := 8) rfl,
    BitVec.extractLsb'_append_extractLsb'_eq_extractLsb' (start₁ := 0) (len₁ := 8) rfl]
  exact BitVec.extractLsb'_eq_self

/-- A word is that of a NEW where its high half is the row's and the fields below are read as the operands. -/
theorem encode_new_eq_iff {p1 p2 p3 : PinId} {pt : BitVec 8} {w : CmdWord} :
    encode (.new p1 p2 p3 pt) = w ↔ w.extractLsb' 32 32 = 0x01#8 ++ 0#24 ∧ decodeNew w = .new p1 p2 p3 pt := by
  conv_lhs => rw [encode, ← newFields_append w]
  rw [append_inj_iff, append_inj_iff, append_inj_iff, append_inj_iff, decodeNew, Instr.new.injEq]
  grind

/-- A 32-bit word reads as a speed where the speed is well-formed and the word is its own (30_encoding.md R73). -/
theorem toInt_eq_rpm_iff {x : BitVec 32} {rpm : Int} :
    x.toInt = rpm ↔ (Instr.setSpeed rpm).wellFormed = true ∧ x = BitVec.ofInt 32 rpm := by
  rw [Instr.wellFormed, decide_eq_true_iff]
  constructor
  · rintro rfl
    exact ⟨⟨x.le_toInt, Int.le_sub_one_of_lt x.toInt_lt⟩, (BitVec.ofInt_toInt).symm⟩
  · rintro ⟨⟨hlo, hhi⟩, rfl⟩
    exact BitVec.toInt_ofInt_eq_self (by decide) hlo (Int.lt_of_le_sub_one hhi)

/-- The lowest field of format B is its bit (30_encoding.md R72). -/
theorem lowBit_eq_ofBool_iff {w : CmdWord} {en : Bool} : w.extractLsb' 0 1 = BitVec.ofBool en ↔ w.getLsbD 0 = en := by
  rw [← BitVec.setWidth_eq_extractLsb' (by decide), BitVec.setWidth_one, BitVec.ofBool_eq_iff_eq]

/-- The words that decode are those of the well-formed commands: a word stands in a command's row and holds its operands
exactly where it is the command's word. -/
theorem decode_eq_ok_iff_encode_eq {w : CmdWord} {i : Instr} :
    decode w = .ok i ↔ i.wellFormed = true ∧ encode i = w := by
  rw [decode_eq_ok_iff]
  have hall : w &&& 0xFFFFFFFFFFFFFFFF#64 = w := BitVec.and_allOnes
  cases i with
  | new p1 p2 p3 pt =>
    have hrow : w &&& rowMask (.new p1 p2 p3 pt) = rowMatch (.new p1 p2 p3 pt) ↔
        w.extractLsb' 32 32 = 0x01#8 ++ 0#24 :=
      and_highMask_eq_iff (m := 32) (n := 32) w (0x01#8 ++ 0#24)
    rw [hrow, encode_new_eq_iff]
    exact (and_iff_right rfl).symm
  | setSpeed rpm =>
    have hrow : w &&& rowMask (.setSpeed rpm) = rowMatch (.setSpeed rpm) ↔
        w.extractLsb' 32 32 = 0x02#8 ++ 0#24 :=
      and_highMask_eq_iff (m := 32) (n := 32) w (0x02#8 ++ 0#24)
    rw [hrow, readOperands, decodeSetSpeed, Instr.setSpeed.injEq, toInt_eq_rpm_iff, encode, append_eq_iff,
      and_left_comm]
  | setSpeedControl en =>
    have hrow : w &&& rowMask (.setSpeedControl en) = rowMatch (.setSpeedControl en) ↔
        w.extractLsb' 1 63 = 0x03#8 ++ 0#55 :=
      and_highMask_eq_iff (m := 63) (n := 1) w (0x03#8 ++ 0#55)
    rw [hrow, readOperands, decodeSetSpeedControl, Instr.setSpeedControl.injEq, ← lowBit_eq_ofBool_iff,
      encode, append_eq_iff]
    exact (and_iff_right rfl).symm
  | _ =>
    -- format N: the mask is every bit, and there is no operand
    simp [rowMask, rowMatch, readOperands, encode, encodeN, Instr.wellFormed, hall, eq_comm]

/-- Settles O2: the word of a command, read back. -/
theorem decodeOfEncode : Obligations.DecodeOfEncode := by
  unfold Obligations.DecodeOfEncode
  exact fun i h => decode_eq_ok_iff_encode_eq.mpr ⟨h, rfl⟩

/-- Settles O3: the words that decode are those of the well-formed commands. -/
theorem encodeOfDecode : Obligations.EncodeOfDecode := by
  unfold Obligations.EncodeOfDecode
  exact fun w i h => decode_eq_ok_iff_encode_eq.mp h

end Sys2Proof
end
